-- ==== Sys2Proof/Word.lean ====
section
/-! DEFINITION. The word types of the machine: a byte of the program text, a 32-bit register or MSR
address, the 64-bit value of a model-specific register (00_scope.md R10, R11, R18). -/

namespace Sys2Proof

/-- One byte of an instruction (30_encoding.md R160). -/
abbrev Byte := BitVec 8

/-- A 32-bit register: EAX, ECX, EDX, EIP (10_state.md R31). -/
abbrev Word32 := BitVec 32

/-- The value of a model-specific register (00_scope.md R10). -/
abbrev Word64 := BitVec 64

/-- An MSR address, compared on all its 32 bits (00_scope.md R11, 30_encoding.md R166). -/
abbrev Addr := BitVec 32

end Sys2Proof
end

