-- ==== Sys2Proof/Config.lean ====
section
/-! DEFINITION. What an implementation fixes (the OPEN parameters of 00_scope.md R14, gathered in
`Params`, which State holds as plain data so that every claim is for every setting) and the free
values (constants with no body: the draws of the hardware agent, of `draw_64()` and of `L2Exec`). -/

namespace Sys2Proof

/-- The processor the table is read for (00_scope.md R8). -/
inductive Model where
  | pentium     -- "the Pentium processor"
  | p6          -- a P6 family processor before the Pentium II
  | pentiumII   -- "the Pentium II and later processors in the P6 family"
deriving DecidableEq, Repr, Inhabited

/-- The three admissible settings of `ReservedWrite` and `ReadOnlyWrite` (40_msr_access.md R199, R200). -/
inductive WritePolicy where
  | preserve    -- admitted only if the bits equal the held ones, else refused
  | ignore      -- the datum's bits are dropped
  | fault       -- a datum that differs raises GP(0)
deriving DecidableEq, Repr, Inhabited

/-- The three admissible settings of `NotImplAccess` (40_msr_access.md R197). -/
inductive NotImplPolicy where
  | refuse
  | fault
  | silent
deriving DecidableEq, Repr, Inhabited

/-- The kind of an MSR access, first argument of `NotImplAccess` (40_msr_access.md R197). -/
inductive AccessKind where
  | read
  | write
deriving DecidableEq, Repr, Inhabited

/-- One fact of the OPEN predicate `LegalValue(a, v)` (40_msr_access.md R201): every `v` that agrees
with `value` on the bits of `mask` is legal at `addr`. With all mask bits set it names one pair, so a
list of rules can say any predicate on the finitely many pairs. -/
structure LegalRule where
  addr  : Addr
  mask  : Word64
  value : Word64
deriving DecidableEq, Repr, Inhabited

/-- The OPEN parameters of the implementation (00_scope.md R14). No step changes them. -/
structure Params where
  /-- 00_scope.md R8. -/
  model         : Model
  /-- `ShadedSet`, 00_scope.md R9: the rows available only in the Pentium II and later. -/
  shaded        : List Addr
  /-- `PhysAddrBits`, 00_scope.md R13; no rule computes with it. -/
  physAddrBits  : Nat
  /-- `CounterBits`, 60_exceptions.md R290: how many bits of a counter register count; no rule
  computes with it, since every counter is a draw. -/
  counterBits   : List (Addr × Nat)
  /-- `ReservedWrite`, 40_msr_access.md R199. -/
  reservedWrite : WritePolicy
  /-- `ReadOnlyWrite`, 40_msr_access.md R200. -/
  readOnlyWrite : WritePolicy
  /-- `NotImplAccess(kind, a)`, 40_msr_access.md R197; a pair not listed has the default, refuse. -/
  notImplAccess : List (AccessKind × Addr × NotImplPolicy)
  /-- `LegalValue(a, v)`, 40_msr_access.md R201: true where a rule of the list says so. -/
  legalValue    : List LegalRule
deriving DecidableEq, Repr, Inhabited

/-- The abstract value `L2 : L2State` (10_state.md R83). Its structure is not in the source; any
finite or countable structure can be numbered, so a number stands for it (DESIGN CHOICE, safe: only
`Config.l2Exec`, a free value, reads or makes one). -/
structure L2State where
  code : Nat
deriving DecidableEq, Repr, Inhabited

/-- The request latched at a trigger (41_l2_commands.md R231, Pseudocode R231). -/
structure L2Request where
  /-- BBL_CR_CTL3 at the trigger. -/
  cfg     : Word64
  /-- BBL_CR_CTL[4:0]. -/
  cmd     : BitVec 5
  /-- BBL_CR_CTL[6:5], "State to L2". -/
  stateTo : BitVec 2
  /-- BBL_CR_CTL[9:8], "Way to L2". -/
  wayTo   : BitVec 2
  /-- BBL_CR_CTL[18], "User supplied ECC" (R238). -/
  userEcc : Bool
  /-- BBL_CR_ADDR[31:3], address lines A31..A3. -/
  addr    : BitVec 29
  d0      : Word64
  d1      : Word64
  d2      : Word64
  d3      : Word64
  /-- BBL_CR_DECC[7:0]. -/
  ecc     : Byte
deriving DecidableEq, Repr, Inhabited

/-- The L2's response (41_l2_commands.md R231, Pseudocode R231). -/
structure L2Response where
  /-- To BBL_CR_CTL[16]. -/
  hit       : Bool
  /-- To BBL_CR_CTL[13:12]. -/
  stateFrom : BitVec 2
  /-- To BBL_CR_CTL[11:10]. -/
  wayFrom   : BitVec 2
  d0        : Word64
  d1        : Word64
  d2        : Word64
  d3        : Word64
  ecc       : Byte
deriving DecidableEq, Repr, Inhabited

/-- The agents that take steps (10_state.md R33, 20_memory.md R149, 41_l2_commands.md R231). -/
inductive Agent where
  | core
  | hardware
  | l2Engine
deriving DecidableEq, Repr, Inhabited

/-- FREE VALUE. `draw_64()` (00_scope.md R19): the n-th draw, under no law. -/
opaque Config.draw64 : Nat → Word64

/-- FREE VALUE. `HwUpdate` (10_state.md R33): what the hardware agent's n-th draw leaves in the
register at an address that held a value; it may be the held value itself. -/
opaque Config.hwUpdate : Nat → Addr → Word64 → Word64

/-- FREE VALUE. `L2Exec` (41_l2_commands.md R231), an OPEN total relation: the answer it gives at the
n-th draw, a new L2 and a response. Every pair that some n gives is related. -/
opaque Config.l2Exec : L2Request → L2State → Nat → L2State × L2Response

/-- FREE VALUE. The agent that moves after the n-th draw (20_memory.md R149: "interleave freely"). -/
opaque Config.agentTurn : Nat → Agent

/-- `L2Exec` as the relation of 41_l2_commands.md R231: what some draw answers. -/
def Config.L2Exec (r : L2Request) (l : L2State) (out : L2State × L2Response) : Prop :=
  ∃ n, Config.l2Exec r l n = out

end Sys2Proof
end

