-- ==== Sys2Proof/Syntax.lean ====
section
/-! DEFINITION. The instructions: one constructor for each row of spec/opcode_table.json (30_encoding.md
R177): the two MSR access instructions, the three auxiliary MOV forms, and the eight commands the L2
engine executes. -/

namespace Sys2Proof

/-- The four L2 line states (00_scope.md R12, 10_state.md R55). -/
inductive Mesi where
  | modified
  | exclusive
  | shared
  | invalid
deriving DecidableEq, Repr, Inhabited

/-- One constructor for each row of the opcode table. -/
inductive Instr where
  | rdmsr
  | wrmsr
  | movEax (imm : Word32)
  | movEcx (imm : Word32)
  | movEdx (imm : Word32)
  | rlu               -- "Data Read w/ LRU update"
  | trr               -- "Tag Read w/ Data Read"
  | ti                -- "Tag Inquire"
  | cr                -- "L2 Control Register Read"
  | cw                -- "L2 Control Register Write"
  | twr (state : Mesi)  -- "Tag Write w/ Data Read"
  | tww (state : Mesi)  -- "Tag Write w/ Data Write"
  | tw (state : Mesi)   -- "Tag Write"
deriving DecidableEq, Repr, Inhabited

end Sys2Proof
end

