-- ==== Sys2Proof/Decode.lean ====
section
/-! DEFINITION. Decoding, total and rejecting by name (30_encoding.md R160 to R165, R170, R171), the
encoder written from the same tables, and the host's reading of an opcode-table word. -/

namespace Sys2Proof

/-- Why the decoder refuses (30_encoding.md R164, R175; 41_l2_commands.md R236; 42_aux_mov.md R260). -/
inductive DecodeError where
  /-- The program text ends inside the instruction (or before it). -/
  | textEnds
  /-- Byte 0 is 0FH and byte 1 is neither 30H nor 32H (R164). -/
  | secondByte (b : Byte)
  /-- B8H + rd with rd = 3 to 7, a register outside the spec (R162, R260). -/
  | registerOutsideSpec (rd : BitVec 3)
  /-- Any other first byte, every prefix among them (R164, R165). -/
  | unknownByte (b : Byte)
  /-- One of the fifteen unassigned L2 command codes (R171, R236). -/
  | unassignedCommand (c : BitVec 5)
deriving DecidableEq, Repr

/-- What decoding answers: the instruction and the bytes after it, or a refusal. -/
inductive Decoded where
  | ok (i : Instr) (rest : List Byte)
  | refused (e : DecodeError)
deriving DecidableEq, Repr

/-- What is decoded: instruction bytes at EIP in ascending order (formats OP2 and MOVI, R160), or the
five-bit L2 command (format L2CMD, R167). -/
inductive Code where
  | bytes (bs : List Byte)
  | l2cmd (c : BitVec 5)
deriving DecidableEq, Repr

/-- The MESI code: Modified 11, Exclusive 10, Shared 01, Invalid 00 (10_state.md R55, 30_encoding.md R170). -/
def mesiCode : Mesi → BitVec 2
  | .modified  => 0b11
  | .exclusive => 0b10
  | .shared    => 0b01
  | .invalid   => 0b00

/-- The state a MESI code names (10_state.md R55). -/
def mesiOfCode (c : BitVec 2) : Mesi :=
  if c = 0b11 then .modified else if c = 0b10 then .exclusive else if c = 0b01 then .shared else .invalid

/-- The immediate of format MOVI: byte4 ++ byte3 ++ byte2 ++ byte1 (30_encoding.md R163). -/
def immOfBytes (b1 b2 b3 b4 : Byte) : Word32 := b4 ++ b3 ++ b2 ++ b1

/-- The four immediate bytes, least significant first (30_encoding.md R162). -/
def bytesOfImm (imm : Word32) : List Byte :=
  [imm.extractLsb' 0 8, imm.extractLsb' 8 8, imm.extractLsb' 16 8, imm.extractLsb' 24 8]

/-- The rest of format OP2 after the escape byte 0FH (30_encoding.md R161, R164). -/
def decodeAfterEscape : List Byte → Decoded
  | [] => .refused .textEnds
  | b :: rest =>
    if b = 0x32 then .ok .rdmsr rest
    else if b = 0x30 then .ok .wrmsr rest
    else .refused (.secondByte b)

/-- The rest of format MOVI after its first byte (30_encoding.md R162). -/
def decodeImmediate (mov : Word32 → Instr) : List Byte → Decoded
  | b1 :: b2 :: b3 :: b4 :: rest => .ok (mov (immOfBytes b1 b2 b3 b4)) rest
  | _ => .refused .textEnds

/-- The decoder of the instruction bytes (30_encoding.md R164): byte 0 decides. -/
def decodeBytes : List Byte → Decoded
  | [] => .refused .textEnds
  | b :: rest =>
    if b = 0x0F then decodeAfterEscape rest
    else if b = 0xB8 then decodeImmediate .movEax rest
    else if b = 0xB9 then decodeImmediate .movEcx rest
    else if b = 0xBA then decodeImmediate .movEdx rest
    else if b.extractLsb' 3 5 = 0b10111 then .refused (.registerOutsideSpec (b.extractLsb' 0 3))
    else .refused (.unknownByte b)

/-- The L2 command a five-bit code names, `none` for the fifteen unassigned codes (30_encoding.md R170,
R171): the prefix is in bits 4:2 and the MESI code in bits 1:0 of the three tag writes. -/
def decodeL2 (c : BitVec 5) : Option Instr :=
  if c = 0b01100 then some .rlu
  else if c = 0b01110 then some .trr
  else if c = 0b01111 then some .ti
  else if c = 0b00010 then some .cr
  else if c = 0b00011 then some .cw
  else if c.extractLsb' 2 3 = 0b010 then some (.twr (mesiOfCode (c.extractLsb' 0 2)))
  else if c.extractLsb' 2 3 = 0b111 then some (.tww (mesiOfCode (c.extractLsb' 0 2)))
  else if c.extractLsb' 2 3 = 0b100 then some (.tw (mesiOfCode (c.extractLsb' 0 2)))
  else none

/-- The decoder of both kinds of code. -/
def decode : Code → Decoded
  | .bytes bs => decodeBytes bs
  | .l2cmd c =>
    match decodeL2 c with
    | some i => .ok i []
    | none => .refused (.unassignedCommand c)

/-- The code of an instruction (30_encoding.md Tables R161, R162, R170). -/
def encode : Instr → Code
  | .rdmsr    => .bytes [0x0F, 0x32]
  | .wrmsr    => .bytes [0x0F, 0x30]
  | .movEax n => .bytes (0xB8 :: bytesOfImm n)
  | .movEcx n => .bytes (0xB9 :: bytesOfImm n)
  | .movEdx n => .bytes (0xBA :: bytesOfImm n)
  | .rlu      => .l2cmd 0b01100
  | .trr      => .l2cmd 0b01110
  | .ti       => .l2cmd 0b01111
  | .cr       => .l2cmd 0b00010
  | .cw       => .l2cmd 0b00011
  | .twr m    => .l2cmd ((0b010 : BitVec 3) ++ mesiCode m)
  | .tww m    => .l2cmd ((0b111 : BitVec 3) ++ mesiCode m)
  | .tw m     => .l2cmd ((0b100 : BitVec 3) ++ mesiCode m)

/-- A code with further instruction bytes after it: an L2 command word has none. -/
def codeThen : Code → List Byte → Code
  | .bytes bs, rest => .bytes (bs ++ rest)
  | .l2cmd c, _ => .l2cmd c

/-- The five bytes, byte 0 first, of an opcode-table word whose bit 0 is the least significant bit of
byte 0 (five is the longest instruction, R162). -/
def tableBytes (w : Nat) : List Byte :=
  [BitVec.ofNat 8 w, BitVec.ofNat 8 (w / 2 ^ 8), BitVec.ofNat 8 (w / 2 ^ 16), BitVec.ofNat 8 (w / 2 ^ 24),
    BitVec.ofNat 8 (w / 2 ^ 32)]

/-- The code an opcode-table word stands for. A row of one byte is an instruction's first byte (format
MOVI) or, where no instruction begins so, the L2 command in its bits 4:0 (format L2CMD, mask 1F): the
table's two kinds of one-byte row never meet, since B8, B9 and BA carry unassigned commands (R171, R177). -/
def codeOfTableWord (nbits w : Nat) : Code :=
  let u := w % 2 ^ nbits
  match decodeBytes (tableBytes u) with
  | .ok _ _ => .bytes (tableBytes u)
  | .refused _ => if nbits ≤ 8 then .l2cmd (BitVec.ofNat 5 u) else .bytes (tableBytes u)

/-- The instruction the decoder reads from an opcode-table word. -/
def decodeTableWord (nbits w : Nat) : Option Instr :=
  match decode (codeOfTableWord nbits w) with
  | .ok i _ => some i
  | .refused _ => none

end Sys2Proof
end

