-- ==== Sys2Proof/Machine/MsrTable.lean ====
section
/-! DEFINITION. Table B-1 as data: the 82 rows (10_state.md Table R32) with the group that decides their
availability (40_msr_access.md R193), the rule a write follows (R201 to R213, the masks of Table R212)
and the class HW (10_state.md Table R33); and the classification `Avail(Model, a)`. -/

namespace Sys2Proof.Machine

/-- The write masks of a described register (40_msr_access.md R202): writable, read-only (software-unwritable
HW bits included), reserved (unlisted bits included). -/
structure Masks where
  rw  : Word64
  ro  : Word64
  rsv : Word64
deriving DecidableEq, Repr

/-- Which processors a row belongs to (40_msr_access.md R193). -/
inductive Group where
  | everyModel      -- 10H: present on every Model
  | pentiumQuiet    -- 0H, 1H: the Pentium's; silent on the P6 family (R194)
  | pentiumLoud     -- 11H, 12H, 13H: the Pentium's; faulting on the P6 family (R195)
  | p6Family        -- any other row
  | p6Absent        -- "not implemented in the P6 family processors" (R197)
deriving DecidableEq, Repr

/-- The rule a WRMSR to a present register follows. -/
inductive WriteRule where
  /-- A register with a field table: R202 with the masks of Table R212. -/
  | masked (m : Masks)
  /-- A name-only register (R201), or MCn_STATUS with its unlisted bits (R213): `LegalValue` decides. -/
  | legal (rsv : Word64)
  /-- BBL_CR_TRIG (R204). -/
  | trigger
  /-- BIOS_UPDT_TRIG (R205). -/
  | biosTrigger
  /-- The spec holds no value for the register (10_state.md R76, R77). -/
  | noRegister
deriving DecidableEq, Repr

/-- One row of Table B-1. -/
structure MsrRow where
  addr  : Addr
  name  : String
  group : Group
  rule  : WriteRule
  /-- Classed HW by 10_state.md Table R33, the L2 engine's registers apart (its changes are R233's). -/
  hw    : Bool
deriving DecidableEq, Repr

/-- The rows 0H to FEH (10_state.md R36 to R52). -/
def msrRowsLow : List MsrRow := [
  ⟨0x0, "P5_MC_ADDR", .pentiumQuiet, .legal 0, true⟩,
  ⟨0x1, "P5_MC_TYPE", .pentiumQuiet, .legal 0, true⟩,
  ⟨0x10, "TSC", .everyModel, .legal 0, true⟩,
  ⟨0x11, "CESR", .pentiumLoud, .legal 0, false⟩,
  ⟨0x12, "CTR0", .pentiumLoud, .legal 0, true⟩,
  ⟨0x13, "CTR1", .pentiumLoud, .legal 0, true⟩,
  ⟨0x1B, "APICBASE", .p6Family, .masked ⟨0x00000000FFFFF800, 0x0000000000000100, 0xFFFFFFFF000006FF⟩, false⟩,
  ⟨0x2A, "EBL_CR_POWERON", .p6Family, .masked ⟨0x00000000040000DE, 0x0000000001F3F700, 0xFFFFFFFFFA0C0821⟩, false⟩,
  ⟨0x33, "TEST_CTL", .p6Family, .masked ⟨0x00000000C0000000, 0x0000000000000000, 0xFFFFFFFF3FFFFFFF⟩, false⟩,
  ⟨0x79, "BIOS_UPDT_TRIG", .p6Family, .biosTrigger, false⟩,
  ⟨0x88, "BBL_CR_D0", .p6Family, .masked ⟨0xFFFFFFFFFFFFFFFF, 0x0000000000000000, 0x0000000000000000⟩, false⟩,
  ⟨0x89, "BBL_CR_D1", .p6Family, .masked ⟨0xFFFFFFFFFFFFFFFF, 0x0000000000000000, 0x0000000000000000⟩, false⟩,
  ⟨0x8A, "BBL_CR_D2", .p6Family, .masked ⟨0xFFFFFFFFFFFFFFFF, 0x0000000000000000, 0x0000000000000000⟩, false⟩,
  ⟨0x8B, "BIOS_SIGN/BBL_CR_D3", .p6Family, .masked ⟨0xFFFFFFFFFFFFFFFF, 0x0000000000000000, 0x0000000000000000⟩, false⟩,
  ⟨0xC1, "PERFCTR0", .p6Family, .legal 0, true⟩,
  ⟨0xC2, "PERFCTR1", .p6Family, .legal 0, true⟩,
  ⟨0xFE, "MTRRcap", .p6Family, .legal 0, false⟩]

/-- The rows 116H to 11EH (10_state.md R53 to R58). -/
def msrRowsL2 : List MsrRow := [
  ⟨0x116, "BBL_CR_ADDR", .p6Family, .masked ⟨0x00000000FFFFFFF8, 0x0000000000000000, 0xFFFFFFFF00000007⟩, false⟩,
  ⟨0x118, "BBL_CR_DECC", .p6Family, .masked ⟨0x00000000000000FF, 0x0000000000000000, 0xFFFFFFFFFFFFFF00⟩, false⟩,
  ⟨0x119, "BBL_CR_CTL", .p6Family, .masked ⟨0x000000000004037F, 0x0000000000013C00, 0xFFFFFFFFFFFAC080⟩, false⟩,
  ⟨0x11A, "BBL_CR_TRIG", .p6Family, .trigger, false⟩,
  ⟨0x11B, "BBL_CR_BUSY", .p6Family, .masked ⟨0x0000000000000000, 0x0000000000000001, 0xFFFFFFFFFFFFFFFE⟩, false⟩,
  ⟨0x11E, "BBL_CR_CTL3", .p6Family, .masked ⟨0x000000000077E1FF, 0x0000000002801E00, 0xFFFFFFFFFD080000⟩, false⟩]

/-- The rows 179H to 1E0H (10_state.md R59 to R69). -/
def msrRowsMid : List MsrRow := [
  ⟨0x179, "MCG_CAP", .p6Family, .legal 0, false⟩,
  ⟨0x17A, "MCG_STATUS", .p6Family, .legal 0, true⟩,
  ⟨0x17B, "MCG_CTL", .p6Family, .legal 0, false⟩,
  ⟨0x186, "EVNTSEL0", .p6Family, .masked ⟨0x00000000FFDFFFFF, 0x0000000000000000, 0xFFFFFFFF00200000⟩, false⟩,
  ⟨0x187, "EVNTSEL1", .p6Family, .masked ⟨0x00000000FF9FFFFF, 0x0000000000000000, 0xFFFFFFFF00600000⟩, false⟩,
  ⟨0x1D9, "DEBUGCTLMSR", .p6Family, .masked ⟨0x000000000000C07F, 0x0000000000000000, 0xFFFFFFFFFFFF3F80⟩, false⟩,
  ⟨0x1DB, "LASTBRANCHFROMIP", .p6Family, .legal 0, true⟩,
  ⟨0x1DC, "LASTBRANCHTOIP", .p6Family, .legal 0, true⟩,
  ⟨0x1DD, "LASTINTFROMIP", .p6Family, .legal 0, true⟩,
  ⟨0x1DE, "LASTINTTOIP", .p6Family, .legal 0, true⟩,
  ⟨0x1E0, "ROB_CR_BKUPTMPDR6", .p6Family, .masked ⟨0x0000000000000004, 0x0000000000000000, 0xFFFFFFFFFFFFFFFB⟩, false⟩]

/-- The rows 200H to 2FFH, the MTRRs (10_state.md R70 to R72). -/
def msrRowsMtrr : List MsrRow := [
  ⟨0x200, "MTRRphysBase0", .p6Family, .legal 0, false⟩,
  ⟨0x201, "MTRRphysMask0", .p6Family, .legal 0, false⟩,
  ⟨0x202, "MTRRphysBase1", .p6Family, .legal 0, false⟩,
  ⟨0x203, "MTRRphysMask1", .p6Family, .legal 0, false⟩,
  ⟨0x204, "MTRRphysBase2", .p6Family, .legal 0, false⟩,
  ⟨0x205, "MTRRphysMask2", .p6Family, .legal 0, false⟩,
  ⟨0x206, "MTRRphysBase3", .p6Family, .legal 0, false⟩,
  ⟨0x207, "MTRRphysMask3", .p6Family, .legal 0, false⟩,
  ⟨0x208, "MTRRphysBase4", .p6Family, .legal 0, false⟩,
  ⟨0x209, "MTRRphysMask4", .p6Family, .legal 0, false⟩,
  ⟨0x20A, "MTRRphysBase5", .p6Family, .legal 0, false⟩,
  ⟨0x20B, "MTRRphysMask5", .p6Family, .legal 0, false⟩,
  ⟨0x20C, "MTRRphysBase6", .p6Family, .legal 0, false⟩,
  ⟨0x20D, "MTRRphysMask6", .p6Family, .legal 0, false⟩,
  ⟨0x20E, "MTRRphysBase7", .p6Family, .legal 0, false⟩,
  ⟨0x20F, "MTRRphysMask7", .p6Family, .legal 0, false⟩,
  ⟨0x250, "MTRRfix64K_00000", .p6Family, .legal 0, false⟩,
  ⟨0x258, "MTRRfix16K_80000", .p6Family, .legal 0, false⟩,
  ⟨0x259, "MTRRfix16K_A0000", .p6Family, .legal 0, false⟩,
  ⟨0x268, "MTRRfix4K_C0000", .p6Family, .legal 0, false⟩,
  ⟨0x269, "MTRRfix4K_C8000", .p6Family, .legal 0, false⟩,
  ⟨0x26A, "MTRRfix4K_D0000", .p6Family, .legal 0, false⟩,
  ⟨0x26B, "MTRRfix4K_D8000", .p6Family, .legal 0, false⟩,
  ⟨0x26C, "MTRRfix4K_E0000", .p6Family, .legal 0, false⟩,
  ⟨0x26D, "MTRRfix4K_E8000", .p6Family, .legal 0, false⟩,
  ⟨0x26E, "MTRRfix4K_F0000", .p6Family, .legal 0, false⟩,
  ⟨0x26F, "MTRRfix4K_F8000", .p6Family, .legal 0, false⟩,
  ⟨0x2FF, "MTRRdefType", .p6Family, .masked ⟨0x0000000000000C07, 0x0000000000000000, 0xFFFFFFFFFFFFF3F8⟩, false⟩]

/-- The rows 400H to 413H, the machine-check banks in the order 0, 1, 2, 4, 3 (10_state.md R73 to R78). -/
def msrRowsMc : List MsrRow := [
  ⟨0x400, "MC0_CTL", .p6Family, .legal 0, false⟩,
  ⟨0x401, "MC0_STATUS", .p6Family, .legal 0x01FFFFFF00000000, true⟩,
  ⟨0x402, "MC0_ADDR", .p6Family, .legal 0, true⟩,
  ⟨0x403, "MC0_MISC", .p6Absent, .noRegister, false⟩,
  ⟨0x404, "MC1_CTL", .p6Family, .legal 0, false⟩,
  ⟨0x405, "MC1_STATUS", .p6Family, .legal 0x01FFFFFF00000000, true⟩,
  ⟨0x406, "MC1_ADDR", .p6Family, .legal 0, true⟩,
  ⟨0x407, "MC1_MISC", .p6Absent, .noRegister, false⟩,
  ⟨0x408, "MC2_CTL", .p6Family, .legal 0, false⟩,
  ⟨0x409, "MC2_STATUS", .p6Family, .legal 0x01FFFFFF00000000, true⟩,
  ⟨0x40A, "MC2_ADDR", .p6Family, .legal 0, true⟩,
  ⟨0x40B, "MC2_MISC", .p6Absent, .noRegister, false⟩,
  ⟨0x40C, "MC4_CTL", .p6Family, .legal 0, false⟩,
  ⟨0x40D, "MC4_STATUS", .p6Family, .legal 0x01FFFFFF00000000, true⟩,
  ⟨0x40E, "MC4_ADDR", .p6Absent, .noRegister, false⟩,
  ⟨0x40F, "MC4_MISC", .p6Absent, .noRegister, false⟩,
  ⟨0x410, "MC3_CTL", .p6Family, .legal 0, false⟩,
  ⟨0x411, "MC3_STATUS", .p6Family, .legal 0x01FFFFFF00000000, true⟩,
  ⟨0x412, "MC3_ADDR", .p6Family, .legal 0, true⟩,
  ⟨0x413, "MC3_MISC", .p6Absent, .noRegister, false⟩]

/-- Table B-1, 82 rows in ascending address (10_state.md R32). -/
def msrTable : List MsrRow := msrRowsLow ++ msrRowsL2 ++ msrRowsMid ++ msrRowsMtrr ++ msrRowsMc

/-- The row an address selects, if any; all 32 bits are compared (30_encoding.md R166). -/
def msrRow? (a : Addr) : Option MsrRow := msrTable.find? fun r => r.addr == a

/-- P5_MC_ADDR (10_state.md R36). -/
abbrev addrP5McAddr : Addr := 0x0
/-- TSC (10_state.md R38). -/
abbrev addrTsc : Addr := 0x10
/-- APICBASE (10_state.md R42). -/
abbrev addrApicBase : Addr := 0x1B
/-- EBL_CR_POWERON (10_state.md R43). -/
abbrev addrEblCrPowerOn : Addr := 0x2A
/-- TEST_CTL (10_state.md R44). -/
abbrev addrTestCtl : Addr := 0x33
/-- BIOS_UPDT_TRIG (10_state.md R45). -/
abbrev addrBiosUpdtTrig : Addr := 0x79
/-- BBL_CR_D0 (10_state.md R46). -/
abbrev addrBblD0 : Addr := 0x88
/-- BBL_CR_D1 (10_state.md R47). -/
abbrev addrBblD1 : Addr := 0x89
/-- BBL_CR_D2 (10_state.md R48). -/
abbrev addrBblD2 : Addr := 0x8A
/-- BIOS_SIGN/BBL_CR_D3 (10_state.md R49). -/
abbrev addrBblD3 : Addr := 0x8B
/-- BBL_CR_ADDR (10_state.md R53). -/
abbrev addrBblAddr : Addr := 0x116
/-- BBL_CR_DECC (10_state.md R54). -/
abbrev addrBblDecc : Addr := 0x118
/-- BBL_CR_CTL (10_state.md R55). -/
abbrev addrBblCtl : Addr := 0x119
/-- BBL_CR_TRIG (10_state.md R56). -/
abbrev addrBblTrig : Addr := 0x11A
/-- BBL_CR_BUSY (10_state.md R57). -/
abbrev addrBblBusy : Addr := 0x11B
/-- BBL_CR_CTL3 (10_state.md R58). -/
abbrev addrBblCtl3 : Addr := 0x11E
/-- EVNTSEL0 (10_state.md R62). -/
abbrev addrEvntSel0 : Addr := 0x186
/-- EVNTSEL1 (10_state.md R63). -/
abbrev addrEvntSel1 : Addr := 0x187
/-- DEBUGCTLMSR (10_state.md R64). -/
abbrev addrDebugCtl : Addr := 0x1D9
/-- ROB_CR_BKUPTMPDR6 (10_state.md R69). -/
abbrev addrRobCr : Addr := 0x1E0
/-- MTRRdefType (10_state.md R72). -/
abbrev addrMtrrDefType : Addr := 0x2FF

/-- The class of an access, the same for reads and writes (40_msr_access.md R193). -/
inductive Avail where
  | unlisted
  | notEstablished
  | faults
  | silent
  | notImplemented
  | present
deriving DecidableEq, Repr

/-- Availability of a row of a group at an address (40_msr_access.md Table R193). -/
def availOfGroup (p : Params) (a : Addr) : Group → Avail
  | .everyModel   => .present
  | .pentiumQuiet => if p.model = .pentium then .present else .silent
  | .pentiumLoud  => if p.model = .pentium then .present else .faults
  | .p6Family     =>
    if p.model = .pentium ∨ (p.model = .p6 ∧ a ∈ p.shaded) then .notEstablished else .present
  | .p6Absent     =>
    if p.model = .pentium ∨ (p.model = .p6 ∧ a ∈ p.shaded) then .notEstablished else .notImplemented

/-- `Avail(Model, a)` (40_msr_access.md R193). -/
def avail (p : Params) (a : Addr) : Avail :=
  match msrRow? a with
  | none => .unlisted
  | some r => availOfGroup p a r.group

/-- `NotImplAccess(kind, a)`: the listed setting, else the default refuse (40_msr_access.md R197). -/
def notImplPolicy (p : Params) (k : AccessKind) (a : Addr) : NotImplPolicy :=
  match p.notImplAccess.find? fun e => e.1 == k && e.2.1 == a with
  | some e => e.2.2
  | none => .refuse

/-- `LegalValue(a, v)`: some rule of the parameter says so (40_msr_access.md R201). -/
def legalValue (p : Params) (a : Addr) (v : Word64) : Bool :=
  p.legalValue.any fun r => r.addr == a && (v &&& r.mask) == (r.value &&& r.mask)

/-- The masks a write to a row follows (40_msr_access.md R202, R213); a row that stores nothing has none
writable. -/
def writeMasks : WriteRule → Masks
  | .masked m  => m
  | .legal rsv => ⟨~~~rsv, 0, rsv⟩
  | _          => ⟨0, 0, BitVec.allOnes 64⟩

/-- Whether a row holds a value (10_state.md R45, R56, R76, R77: four kinds of row hold none). -/
def holdsValue (r : MsrRow) : Bool :=
  match r.rule with
  | .masked _ | .legal _ => true
  | _ => false

/-- The nine registers that neither RDMSR nor WRMSR reaches while a command is in progress (40_msr_access.md
R209). -/
def busyLocked (a : Addr) : Bool :=
  a == addrBblD0 || a == addrBblD1 || a == addrBblD2 || a == addrBblD3 || a == addrBblAddr ||
  a == addrBblDecc || a == addrBblCtl || a == addrBblTrig || a == addrBblCtl3

/-- The registers WRMSR does not reach while a command is in progress: those nine and BBL_CR_BUSY, of which only
a read is admitted then (70_reset_and_hazards.md R332, "any BBL register"; 92_eei_decisions.md D18; log 26). -/
def writeLocked (a : Addr) : Bool := busyLocked a || a == addrBblBusy

end Sys2Proof.Machine
end

