-- ==== Sys2Proof/Machine/Fields.lean ====
section
/-! DEFINITION. The fields of the described registers: the field tables of 10_state.md (R42 to R74) as data,
the masks they give, and the typed readings of the fields the source gives a meaning (code tables, the
APIC base, the reset vector, the MTRR names, the bank order). -/

namespace Sys2Proof.Machine

/-- The access word the source prints for a field (00_scope.md R21). -/
inductive SourceAccess where
  | readWrite
  | readOnly
  | read
  | notGiven
deriving DecidableEq, Repr

/-- The spec's class of a field (00_scope.md R21). -/
inductive FieldClass where
  | rw
  | ro
  | hw
  | rsv
  | unl
deriving DecidableEq, Repr

/-- One line of a field table. -/
structure Field where
  hi     : Nat
  lo     : Nat
  text   : String
  access : SourceAccess
  cls    : FieldClass
deriving DecidableEq, Repr

/-- The mask of bits `hi` down to `lo` (00_scope.md R16). -/
def bitsMask (hi lo : Nat) : Word64 := (BitVec.allOnes 64 >>> (63 - (hi - lo))) <<< lo

/-- The value of a field in a register value, `v[hi:lo]` (00_scope.md R16). -/
def fieldValue (f : Field) (v : Word64) : Nat := (v.extractLsb' f.lo (f.hi - f.lo + 1)).toNat

/-- The union of the bits of the fields whose class is listed. -/
def classMask (fs : List Field) (cs : List FieldClass) : Word64 :=
  fs.foldl (fun m f => if cs.contains f.cls then m ||| bitsMask f.hi f.lo else m) 0

/-- The masks a field table gives (40_msr_access.md R202, R212). -/
def masksOfFields (fs : List Field) : Masks :=
  ⟨classMask fs [.rw], classMask fs [.ro, .hw], classMask fs [.rsv, .unl]⟩

/-- 10_state.md Table R42. -/
def fieldsApicBase : List Field := [
  ⟨7, 0, "Reserved", .notGiven, .rsv⟩,
  ⟨8, 8, "Boot Strap Processor indicator Bit. BSP= 1", .notGiven, .ro⟩,
  ⟨10, 9, "Reserved", .notGiven, .rsv⟩,
  ⟨11, 11, "APIC Global Enable Bit - Permanent til reset Enabled = 1, Disabled = 0", .notGiven, .rw⟩,
  ⟨31, 12, "APIC Base Address", .notGiven, .rw⟩,
  ⟨63, 32, "Reserved", .notGiven, .rsv⟩]

/-- 10_state.md Table R43. -/
def fieldsEblCrPowerOn : List Field := [
  ⟨0, 0, "Reserved", .notGiven, .rsv⟩,
  ⟨1, 1, "Data Error Checking Enable", .readWrite, .rw⟩,
  ⟨2, 2, "Response Error Checking Enable FRCERR Observation Enable", .readWrite, .rw⟩,
  ⟨3, 3, "AERR# Drive Enable", .readWrite, .rw⟩,
  ⟨4, 4, "BERR# Enable for initiator bus requests", .readWrite, .rw⟩,
  ⟨5, 5, "Reserved", .notGiven, .rsv⟩,
  ⟨6, 6, "BERR# Enable for initiator internal errors", .readWrite, .rw⟩,
  ⟨7, 7, "BINIT# Driver Enable", .readWrite, .rw⟩,
  ⟨8, 8, "Output Tri-state Enabled", .read, .ro⟩,
  ⟨9, 9, "Execute BIST", .read, .ro⟩,
  ⟨10, 10, "AERR# Observation Enabled", .read, .ro⟩,
  ⟨11, 11, "Reserved", .notGiven, .rsv⟩,
  ⟨12, 12, "BINIT# Observation Enabled", .readOnly, .ro⟩,
  ⟨13, 13, "In Order Queue Depth", .readOnly, .ro⟩,
  ⟨14, 14, "1M Power on Reset Vector", .readOnly, .ro⟩,
  ⟨15, 15, "FRC Mode Enable", .readOnly, .ro⟩,
  ⟨17, 16, "APIC Cluster ID", .readOnly, .ro⟩,
  ⟨19, 18, "not listed", .notGiven, .unl⟩,
  ⟨21, 20, "Symmetric Arbitration ID", .readOnly, .ro⟩,
  ⟨24, 22, "Clock Frequency Ratio", .readOnly, .ro⟩,
  ⟨25, 25, "Reserved", .notGiven, .rsv⟩,
  ⟨26, 26, "Low Power Mode Enable", .readWrite, .rw⟩,
  ⟨31, 27, "Reserved", .notGiven, .rsv⟩,
  ⟨63, 32, "not listed", .notGiven, .unl⟩]

/-- 10_state.md Table R44. -/
def fieldsTestCtl : List Field := [
  ⟨29, 0, "Reserved", .notGiven, .rsv⟩,
  ⟨30, 30, "Streaming Buffer Disable", .notGiven, .rw⟩,
  ⟨31, 31, "Disable LOCK# assertion for split locked access", .notGiven, .rw⟩,
  ⟨63, 32, "not listed", .notGiven, .unl⟩]

/-- 10_state.md R46 to R49. -/
def fieldsBblData : List Field := [⟨63, 0, "Chunk data register D[63:0]", .notGiven, .rw⟩]

/-- 10_state.md Table R53. -/
def fieldsBblAddr : List Field := [
  ⟨63, 32, "Reserved,", .notGiven, .rsv⟩,
  ⟨31, 3, "Address bits A31 to A3", .notGiven, .rw⟩,
  ⟨2, 0, "Reserved Set to 0.", .notGiven, .rsv⟩]

/-- 10_state.md R54. -/
def fieldsBblDecc : List Field := [
  ⟨7, 0, "Data ECC register D[7:0]", .notGiven, .rw⟩,
  ⟨63, 8, "not listed", .notGiven, .unl⟩]

/-- 10_state.md Table R55. -/
def fieldsBblCtl : List Field := [
  ⟨63, 19, "Reserved", .notGiven, .rsv⟩,
  ⟨18, 18, "User supplied ECC", .notGiven, .rw⟩,
  ⟨17, 17, "Reserved", .notGiven, .rsv⟩,
  ⟨16, 16, "L2 Hit", .notGiven, .hw⟩,
  ⟨15, 14, "Reserved", .notGiven, .rsv⟩,
  ⟨13, 12, "State from L2", .notGiven, .hw⟩,
  ⟨11, 10, "Way from L2", .notGiven, .hw⟩,
  ⟨9, 8, "Way to L2", .notGiven, .rw⟩,
  ⟨7, 7, "Reserved", .notGiven, .rsv⟩,
  ⟨6, 5, "State to L2", .notGiven, .rw⟩,
  ⟨4, 0, "L2 Command", .notGiven, .rw⟩]

/-- 10_state.md R57. -/
def fieldsBblBusy : List Field := [
  ⟨0, 0, "D[0] = 1 = BUSY", .notGiven, .hw⟩,
  ⟨63, 1, "not listed", .notGiven, .unl⟩]

/-- 10_state.md Table R58. -/
def fieldsBblCtl3 : List Field := [
  ⟨63, 26, "Reserved", .notGiven, .rsv⟩,
  ⟨25, 25, "Cache bus fraction", .readOnly, .ro⟩,
  ⟨24, 24, "Reserved", .notGiven, .rsv⟩,
  ⟨23, 23, "L2 Hardware Disable", .readOnly, .ro⟩,
  ⟨22, 20, "L2 Physical Address Range support", .notGiven, .rw⟩,
  ⟨19, 19, "Reserved", .notGiven, .rsv⟩,
  ⟨18, 18, "Cache State error checking enable", .readWrite, .rw⟩,
  ⟨17, 13, "Cache size per bank", .readWrite, .rw⟩,
  ⟨12, 11, "Number of L2 banks", .readOnly, .ro⟩,
  ⟨10, 9, "L2 Associativity", .readOnly, .ro⟩,
  ⟨8, 8, "L2 Enabled", .readWrite, .rw⟩,
  ⟨7, 7, "CRTN Parity Check Enable", .readWrite, .rw⟩,
  ⟨6, 6, "Address Parity Check Enable", .readWrite, .rw⟩,
  ⟨5, 5, "ECC Check Enable", .readWrite, .rw⟩,
  ⟨4, 1, "L2 Cache Latency", .readWrite, .rw⟩,
  ⟨0, 0, "L2 Configured", .readWrite, .rw⟩]

/-- 10_state.md Table R62. -/
def fieldsEvntSel0 : List Field := [
  ⟨7, 0, "Event Select", .notGiven, .rw⟩,
  ⟨15, 8, "UMASK: Unit Mask Register", .notGiven, .rw⟩,
  ⟨16, 16, "USER: Controls the counting of events at Privilege levels of 1, 2, and 3", .notGiven, .rw⟩,
  ⟨17, 17, "OS: Controls the counting of events at Privilege level of 0", .notGiven, .rw⟩,
  ⟨18, 18, "E: Occurrence/Duration Mode Select 1 = Occurrence 0 = Duration", .notGiven, .rw⟩,
  ⟨19, 19, "PC: Enabled the signalling of performance counter overflow via BP0 pin", .notGiven, .rw⟩,
  ⟨20, 20, "INT: Enables the signalling of counter overflow via input to APIC", .notGiven, .rw⟩,
  ⟨21, 21, "not listed", .notGiven, .unl⟩,
  ⟨22, 22, "ENABLE: Enables the counting of performance events in both counters", .notGiven, .rw⟩,
  ⟨23, 23, "INV: Inverts the result of the CMASK condition", .notGiven, .rw⟩,
  ⟨31, 24, "CMASK: Counter Mask", .notGiven, .rw⟩,
  ⟨63, 32, "not listed", .notGiven, .unl⟩]

/-- 10_state.md Table R63: as EVNTSEL0 but for bits 22:21, not listed. -/
def fieldsEvntSel1 : List Field :=
  fieldsEvntSel0.take 7 ++ [⟨22, 21, "not listed", .notGiven, .unl⟩] ++ fieldsEvntSel0.drop 9

/-- 10_state.md Table R64. -/
def fieldsDebugCtl : List Field := [
  ⟨0, 0, "Enable/Disable Last Branch Records", .notGiven, .rw⟩,
  ⟨1, 1, "Branch Trap Flag", .notGiven, .rw⟩,
  ⟨2, 2, "Performance Monitoring/Break Point Pins", .notGiven, .rw⟩,
  ⟨3, 3, "Performance Monitoring/Break Point Pins", .notGiven, .rw⟩,
  ⟨4, 4, "Performance Monitoring/Break Point Pins", .notGiven, .rw⟩,
  ⟨5, 5, "Performance Monitoring/Break Point Pins", .notGiven, .rw⟩,
  ⟨6, 6, "Enable/Disable Execution Trace Messages", .notGiven, .rw⟩,
  ⟨13, 7, "Reserved", .notGiven, .rsv⟩,
  ⟨14, 14, "Enable/Disable Execution Trace Messages", .notGiven, .rw⟩,
  ⟨15, 15, "Enable/Disable Execution Trace Messages", .notGiven, .rw⟩,
  ⟨63, 16, "not listed", .notGiven, .unl⟩]

/-- 10_state.md Table R69. -/
def fieldsRobCr : List Field := [
  ⟨1, 0, "Reserved", .notGiven, .rsv⟩,
  ⟨2, 2, "Fast String Enable bit. Default is enabled", .notGiven, .rw⟩,
  ⟨63, 3, "not listed", .notGiven, .unl⟩]

/-- 10_state.md Table R72. -/
def fieldsMtrrDefType : List Field := [
  ⟨2, 0, "Default memory type", .notGiven, .rw⟩,
  ⟨9, 3, "not listed", .notGiven, .unl⟩,
  ⟨10, 10, "Fixed MTRR enable", .notGiven, .rw⟩,
  ⟨11, 11, "MTRR Enable", .notGiven, .rw⟩,
  ⟨63, 12, "not listed", .notGiven, .unl⟩]

/-- 10_state.md Table R74, the layout of all five MCn_STATUS (R75). -/
def fieldsMcStatus : List Field := [
  ⟨63, 63, "MC_STATUS_V", .notGiven, .hw⟩,
  ⟨62, 62, "MC_STATUS_O", .notGiven, .hw⟩,
  ⟨61, 61, "MC_STATUS_UC", .notGiven, .hw⟩,
  ⟨60, 60, "MC_STATUS_EN", .notGiven, .hw⟩,
  ⟨59, 59, "MC_STATUS_MISCV", .notGiven, .hw⟩,
  ⟨58, 58, "MC_STATUS_ADDRV", .notGiven, .hw⟩,
  ⟨57, 57, "MC_STATUS_DAM", .notGiven, .hw⟩,
  ⟨56, 32, "not listed", .notGiven, .unl⟩,
  ⟨31, 16, "MC_STATUS_MSCOD", .notGiven, .hw⟩,
  ⟨15, 0, "MC_STATUS_MCACOD", .notGiven, .hw⟩]

/-- The field tables of the registers the masks of Table R212 cover, by address. -/
def fieldTables : List (Addr × List Field) := [
  (addrApicBase, fieldsApicBase), (addrEblCrPowerOn, fieldsEblCrPowerOn), (addrTestCtl, fieldsTestCtl),
  (addrBblD0, fieldsBblData), (addrBblD1, fieldsBblData), (addrBblD2, fieldsBblData), (addrBblD3, fieldsBblData),
  (addrBblAddr, fieldsBblAddr), (addrBblDecc, fieldsBblDecc), (addrBblCtl, fieldsBblCtl),
  (addrBblBusy, fieldsBblBusy), (addrBblCtl3, fieldsBblCtl3), (addrEvntSel0, fieldsEvntSel0),
  (addrEvntSel1, fieldsEvntSel1), (addrDebugCtl, fieldsDebugCtl), (addrRobCr, fieldsRobCr),
  (addrMtrrDefType, fieldsMtrrDefType)]

/-- The base of the APIC's registers, `APICBASE[31:12] ++ 0x000` (10_state.md R42, 20_memory.md R138). -/
def apicBaseAddress (v : Word64) : Word32 := v.extractLsb' 12 20 ++ (0 : BitVec 12)

/-- APICBASE bit 8: this is the boot-strap processor (10_state.md R42). -/
def apicIsBsp (v : Word64) : Bool := v.getLsbD 8

/-- APICBASE bit 11, the APIC global enable (10_state.md R42). -/
def apicEnabled (v : Word64) : Bool := v.getLsbD 11

/-- EBL_CR_POWERON bit 13: 1 means depth 1, 0 means depth 8 (10_state.md R43). -/
def inOrderQueueDepth (v : Word64) : Nat := if v.getLsbD 13 then 1 else 8

/-- EBL_CR_POWERON bit 14: the reset vector at the top of 1M or of 4G; the addresses are the usual ones
the spec names (20_memory.md R141; PRESUMED). -/
def resetVector (v : Word64) : Word32 := if v.getLsbD 14 then 0x000FFFF0 else 0xFFFFFFF0

/-- EBL_CR_POWERON bits 17:16, "APIC Cluster ID" (10_state.md R43). -/
def apicClusterId (v : Word64) : BitVec 2 := v.extractLsb' 16 2

/-- EBL_CR_POWERON bits 21:20, "Symmetric Arbitration ID" (10_state.md R43). -/
def symmetricArbitrationId (v : Word64) : BitVec 2 := v.extractLsb' 20 2

/-- EBL_CR_POWERON bits 24:22, "Clock Frequency Ratio"; the codes are not in the source (10_state.md R43). -/
def clockFrequencyRatio (v : Word64) : BitVec 3 := v.extractLsb' 22 3

/-- BBL_CR_CTL3 bits 22:20: code c means 2^(29+c) bytes (10_state.md Table R58a, 20_memory.md R142). -/
def l2RangeBytes (c : BitVec 3) : Nat := 2 ^ (29 + c.toNat)

/-- BBL_CR_CTL3 bits 17:13: the five listed size codes; any other has no meaning (10_state.md Table R58a). -/
def cacheSizeBytes? (c : BitVec 5) : Option Nat :=
  if c = 0b00001 then some (256 * 2 ^ 10)
  else if c = 0b00010 then some (512 * 2 ^ 10)
  else if c = 0b00100 then some (2 ^ 20)
  else if c = 0b01000 then some (2 * 2 ^ 20)
  else if c = 0b10000 then some (4 * 2 ^ 20)
  else none

/-- BBL_CR_CTL3 bits 10:9: how many ways; 11 is reserved (10_state.md Table R58a, 41_l2_commands.md R249). -/
def associativityWays? (c : BitVec 2) : Option Nat :=
  if c = 0b00 then some 1 else if c = 0b01 then some 2 else if c = 0b10 then some 4 else none

/-- The fields of EVNTSEL0 and EVNTSEL1 (10_state.md R62, R63; 60_exceptions.md R292 to R297). -/
structure EventSelect where
  event      : BitVec 8
  umask      : BitVec 8
  user       : Bool
  os         : Bool
  occurrence : Bool
  pc         : Bool
  int        : Bool
  inv        : Bool
  cmask      : BitVec 8
deriving DecidableEq, Repr

/-- The reading of an event select register (10_state.md R62, R63). -/
def eventSelect (v : Word64) : EventSelect where
  event      := v.extractLsb' 0 8
  umask      := v.extractLsb' 8 8
  user       := v.getLsbD 16
  os         := v.getLsbD 17
  occurrence := v.getLsbD 18
  pc         := v.getLsbD 19
  int        := v.getLsbD 20
  inv        := v.getLsbD 23
  cmask      := v.extractLsb' 24 8

/-- EVNTSEL0 bit 22 enables counting in both counters (60_exceptions.md R296). -/
def countingEnabled (evntSel0 : Word64) : Bool := evntSel0.getLsbD 22

/-- The event select that governs a performance counter (60_exceptions.md R291). -/
def governingSelect : Fin 2 → Addr
  | 0 => addrEvntSel0
  | 1 => addrEvntSel1

/-- MTRRphysBaseN and MTRRphysMaskN are at 200H + 2N and 201H + 2N (10_state.md R70). -/
def mtrrPhysBaseAddr (n : Fin 8) : Addr := 0x200 + 2 * BitVec.ofNat 32 n.val

/-- MTRRphysMaskN (10_state.md R70). -/
def mtrrPhysMaskAddr (n : Fin 8) : Addr := 0x201 + 2 * BitVec.ofNat 32 n.val

/-- A fixed-range MTRR: its address, the size in its name and the start address in its name (20_memory.md R143). -/
structure FixedMtrr where
  addr  : Addr
  size  : Nat
  start : Nat
deriving DecidableEq, Repr

/-- The eleven fixed-range MTRRs (10_state.md R71, 20_memory.md R143). -/
def fixedMtrrs : List FixedMtrr := [
  ⟨0x250, 0x10000, 0x00000⟩, ⟨0x258, 0x4000, 0x80000⟩, ⟨0x259, 0x4000, 0xA0000⟩,
  ⟨0x268, 0x1000, 0xC0000⟩, ⟨0x269, 0x1000, 0xC8000⟩, ⟨0x26A, 0x1000, 0xD0000⟩, ⟨0x26B, 0x1000, 0xD8000⟩,
  ⟨0x26C, 0x1000, 0xE0000⟩, ⟨0x26D, 0x1000, 0xE8000⟩, ⟨0x26E, 0x1000, 0xF0000⟩, ⟨0x26F, 0x1000, 0xF8000⟩]

/-- The four registers of a machine-check bank (10_state.md R78). -/
inductive BankReg where
  | ctl
  | status
  | addr
  | misc
deriving DecidableEq, Repr

/-- The place of a bank's block of four: banks 3 and 4 stand in the order 4, 3 (10_state.md R78). -/
def bankBlock (bank : Fin 5) : Nat := if bank = 3 then 4 else if bank = 4 then 3 else bank.val

/-- The offset of a register in its block (10_state.md R78). -/
def bankOffset : BankReg → Nat
  | .ctl => 0
  | .status => 1
  | .addr => 2
  | .misc => 3

/-- The address of a bank register, 400H + 4i + k (10_state.md R78). -/
def bankAddr (bank : Fin 5) (k : BankReg) : Addr := BitVec.ofNat 32 (0x400 + 4 * bankBlock bank + bankOffset k)

end Sys2Proof.Machine
end

