-- ==== Sys2Proof/Machine/Store.lean ====
section
/-! DEFINITION. Sparse stores keyed by a plain number: the one representation behind the program text and
the MSR file. A store is canonical when its keys rise strictly. -/

namespace Sys2Proof.Machine

/-- What a store lists at a key. -/
def storeGet? {α : Type} : List (Nat × α) → Nat → Option α
  | [], _ => none
  | (k, v) :: t, a => if k = a then some v else storeGet? t a

/-- A store with a value listed at a key, in rising order of keys. -/
def storeSet {α : Type} : List (Nat × α) → Nat → α → List (Nat × α)
  | [], a, v => [(a, v)]
  | (k, w) :: t, a, v =>
    if a < k then (a, v) :: (k, w) :: t
    else if a = k then (a, v) :: t
    else (k, w) :: storeSet t a v

/-- A store with nothing listed at a key. -/
def storeErase {α : Type} : List (Nat × α) → Nat → List (Nat × α)
  | [], _ => []
  | (k, w) :: t, a => if k = a then storeErase t a else (k, w) :: storeErase t a

/-- The canonical form: keys strictly rising. -/
abbrev storeSorted {α : Type} (m : List (Nat × α)) : Prop := m.Pairwise fun x y => x.1 < y.1

end Sys2Proof.Machine
end

