-- ==== Sys2Proof/Machine/ResetValues.lean ====
section
/-! DEFINITION. The values at reset (70_reset_and_hazards.md R321 to R329): `ResetValue` where the spec fixes
a bit, and the values the assumption log names everywhere else (UNSAFE, log 2, 4, 5, 6). -/

namespace Sys2Proof.Machine

/-- APICBASE at reset: bit 8 says whether this is the boot-strap processor (R323); the base FEE00000H and
the enable bit are the usual values the spec names (60_exceptions.md R279, R327; PRESUMED, log 5). -/
def resetApicBase (bsp : Bool) : Word64 := if bsp then 0xFEE00900 else 0xFEE00800

/-- EBL_CR_POWERON at reset: bit 26 is 1 on the Pentium II, 0 on the P6 (R324); the other bits are zero
(DESIGN CHOICE, log 4). -/
def resetEblCrPowerOn (m : Model) : Word64 := if m = .pentiumII then 0x04000000 else 0

/-- ROB_CR_BKUPTMPDR6 at reset: bit 2, "Default is enabled" (R326). -/
def resetRobCr : Word64 := 0x4

/-- The MSR file at reset: every register not listed is zero (DESIGN CHOICE, log 4), BBL_CR_BUSY among
them (its bit 0 by R325). -/
def resetMsr (m : Model) (bsp : Bool) : List (Nat × Word64) :=
  (if m = .pentiumII then [(0x1B, resetApicBase bsp), (0x2A, resetEblCrPowerOn m), (0x1E0, resetRobCr)]
   else [(0x1B, resetApicBase bsp), (0x1E0, resetRobCr)])

/-- The OPEN parameters the machine `core` runs with (DESIGN CHOICE, UNSAFE, log 2 and 3): on `PentiumII`
no row is missing whatever `ShadedSet` is; the policies are the defaults the rules name. -/
def resetParams : Params where
  model         := .pentiumII
  shaded        := []
  physAddrBits  := 36
  counterBits   := []
  reservedWrite := .preserve
  readOnlyWrite := .preserve
  notImplAccess := []
  legalValue    := []

end Sys2Proof.Machine
end

