-- ==== Sys2Proof/WellFormed.lean ====
section
/-! DEFINITION. Well-formedness. Every term of `Instr` is well formed: its operands are a 32-bit immediate
and a line state, and their types carry all the spec asks (30_encoding.md R162, R170). What has
ill-formed terms is `Params`: each check below is a constraint the spec puts on an OPEN parameter. -/

namespace Sys2Proof

/-- `ShadedSet` is a subset of the table's addresses (00_scope.md R9). -/
def shadedListed (p : Params) : Bool := p.shaded.all fun a => (Machine.msrRow? a).isSome

/-- `ShadedSet` holds none of the six Pentium rows (00_scope.md R9). -/
def shadedNotPentium (p : Params) : Bool :=
  p.shaded.all fun a => a != 0x0 && a != 0x1 && a != 0x10 && a != 0x11 && a != 0x12 && a != 0x13

/-- `PhysAddrBits ≤ 36` on the P6 family (00_scope.md R13). -/
def physAddrBitsOk (p : Params) : Bool := p.model == .pentium || p.physAddrBits ≤ 36

/-- `NotImplAccess` speaks of the six not-implemented registers only (40_msr_access.md R197). -/
def notImplAccessOk (p : Params) : Bool :=
  p.notImplAccess.all fun e => match Machine.msrRow? e.2.1 with
    | some r => r.group == .p6Absent
    | none => false

/-- The parameters meet every constraint the spec puts on them. -/
def paramsWellFormed (p : Params) : Bool :=
  shadedListed p && shadedNotPentium p && physAddrBitsOk p && notImplAccessOk p

end Sys2Proof
end

