-- ==== Sys2Proof/Machine/State.lean ====
section
/-! DEFINITION. The state, the reasons a step can stop, and the machine right after reset. -/

namespace Sys2Proof.Machine

/-- The machine state (INVENTORY.md, State), plain data. -/
structure State where
  /-- 10_state.md R31. -/
  eax       : Word32
  /-- 10_state.md R31. -/
  ecx       : Word32
  /-- 10_state.md R31. -/
  edx       : Word32
  /-- The address of the instruction being executed (10_state.md R31, R80). -/
  eip       : Word32
  /-- The current privilege level, 0 most privileged (10_state.md R31). -/
  cpl       : BitVec 2
  /-- The MSR file (10_state.md R30): (address, value) in rising order; an address not listed reads as
  zero and no listed value is zero. -/
  msr       : List (Nat × Word64)
  /-- The L2's content, abstract (10_state.md R83). -/
  l2        : L2State
  /-- The latched request of the command in progress (10_state.md R84). -/
  l2Pending : Option L2Request
  /-- The program text (20_memory.md R131, R152): (address, byte) in rising order; an address not listed
  holds no byte. -/
  program   : List Host.Cell
  /-- The OPEN parameters of the implementation (00_scope.md R14); no step changes them. -/
  params    : Params
  /-- The MODEL's own: the agent that moves next (20_memory.md R149). -/
  turn      : Agent
  /-- The MODEL's own: the counter the free values are applied to (00_scope.md R19, `draw_N()`). -/
  draws     : Nat
deriving DecidableEq, Repr

/-- The one fault (60_exceptions.md R271): the processor raises an exception and the run ends (R275). -/
inductive Fault where
  /-- The general-protection exception with error code 0. Raised by RDMSR and WRMSR: at CPL not 0 (R192), at
  11H, 12H, 13H on the P6 family (R195), and where a parameter is set to fault (R197, R199, R200). SAFE: it
  is what the spec says, and what the processor does next is outside the model (R275). -/
  | gp0
deriving DecidableEq, Repr

/-- Why the model gives a step no meaning (00_scope.md R20, `refused`). Every constructor but the first is a
case the spec itself refuses; all are SAFE: the model stops where the hardware may go on. -/
inductive Refusal where
  /-- An instruction with no meaning in the model yet; no arm of `exec` answers it now. -/
  | notModelled (mnemonic : String)
  /-- The bytes at EIP are no instruction of the spec (30_encoding.md R164), or the latched code no command. -/
  | undecodable (e : DecodeError)
  /-- RDMSR or WRMSR of an address not in Table B-1 (40_msr_access.md R196). -/
  | unlistedMsr (a : Addr)
  /-- RDMSR or WRMSR of a register not established for the Model (40_msr_access.md R193). -/
  | notEstablished (a : Addr)
  /-- RDMSR or WRMSR of a register not implemented, under NotImplAccess = refuse (40_msr_access.md R197). -/
  | notImplemented (a : Addr)
  /-- RDMSR of BBL_CR_TRIG, "Write only" (40_msr_access.md R204). -/
  | writeOnlyMsr (a : Addr)
  /-- RDMSR or WRMSR of a BBL register while a command is in progress, a read of BBL_CR_BUSY apart
  (40_msr_access.md R209; 70_reset_and_hazards.md R332; log 26). -/
  | l2Busy (a : Addr)
  /-- WRMSR that differs in a reserved or unlisted bit, under ReservedWrite = preserve (40_msr_access.md R199). -/
  | reservedBits (a : Addr)
  /-- WRMSR that differs in a read-only bit, under ReadOnlyWrite = preserve (40_msr_access.md R200). -/
  | readOnlyBits (a : Addr)
  /-- WRMSR of a value not known to be legal to a name-only register (40_msr_access.md R201). -/
  | illegalValue (a : Addr)
  /-- WRMSR that sets a cleared APIC enable, "Permanent til reset" (40_msr_access.md R203). -/
  | apicReenable
  /-- WRMSR of BBL_CR_TRIG with a datum that is not 0 (40_msr_access.md R204). -/
  | triggerNotZero
  /-- A trigger with an unassigned command code (41_l2_commands.md R236). -/
  | triggerUnassigned (c : BitVec 5)
  /-- WRMSR of BIOS_UPDT_TRIG (40_msr_access.md R205). -/
  | biosUpdate
  /-- WRMSR of BBL_CR_ADDR with bits 2:0 not zero (40_msr_access.md R206). -/
  | addrLowBits
  /-- WRMSR of BBL_CR_CTL3 with a cache size code that is not listed (40_msr_access.md R208). -/
  | cacheSizeCode (c : BitVec 5)
  /-- An L2 command taken while the engine holds no such command: its step is enabled only while busy, for
  the latched command (41_l2_commands.md R233). No state that a run reaches answers it. -/
  | l2CommandNotLatched (c : BitVec 5)
deriving DecidableEq, Repr

/-- The machine after reset with given parameters, on the boot-strap processor or another (70_reset_and_hazards.md
R321 to R329; the values the spec leaves open are the log's, UNSAFE: log 4, 5, 6, 8, 10, 12). -/
def State.resetWith (p : Params) (bsp : Bool) : State where
  eax       := 0
  ecx       := 0
  edx       := 0
  eip       := resetVector (resetEblCrPowerOn p.model)
  cpl       := 0
  msr       := resetMsr p.model bsp
  l2        := ⟨0⟩
  l2Pending := none
  program   := []
  params    := p
  turn      := .core
  draws     := 0

/-- The machine right after reset (log 2: on `PentiumII`, the boot-strap processor). -/
def State.reset : State := State.resetWith resetParams true

end Sys2Proof.Machine
end

