-- ==== Sys2Proof/Machine/Operands.lean ====
section
/-! DEFINITION. The operands: the MSR file's registers, the implicit operands of RDMSR and WRMSR
(30_encoding.md R163), and the operands of an L2 command (R167, 41_l2_commands.md R231). The spec has no
flag and no condition code (10_state.md R81), so there is no flag computation. -/

namespace Sys2Proof.Machine

/-- The value an MSR file holds for an address; an address not listed reads as zero (log 24). -/
def msrGet (f : List (Nat × Word64)) (a : Addr) : Word64 := (storeGet? f a.toNat).getD 0

/-- The MSR file with a value held for an address, kept canonical: zero is held by listing nothing. -/
def msrSet (f : List (Nat × Word64)) (a : Addr) (v : Word64) : List (Nat × Word64) :=
  if v = 0 then storeErase f a.toNat else storeSet f a.toNat v

/-- `MSR[a]` (00_scope.md R19). -/
def State.getMsr (s : State) (a : Addr) : Word64 := msrGet s.msr a

/-- `MSR[a] <- v` (00_scope.md R19). -/
def State.setMsr (s : State) (a : Addr) (v : Word64) : State := { s with msr := msrSet s.msr a v }

/-- The canonical form of the MSR file: addresses rising, each a row of Table B-1 that holds a value, no
listed value zero. -/
abbrev MsrFile.wf (f : List (Nat × Word64)) : Prop :=
  storeSorted f ∧ ∀ e ∈ f, e.2 ≠ 0 ∧ ∃ r ∈ msrTable, holdsValue r = true ∧ r.addr.toNat = e.1

/-- The MSR address of RDMSR and WRMSR: ECX as it stands (30_encoding.md R163). -/
def msrAddress (s : State) : Addr := s.ecx

/-- The datum of WRMSR: EDX is bits 63:32 and EAX bits 31:0 (30_encoding.md R163). -/
def datum (s : State) : Word64 := s.edx ++ s.eax

/-- EDX:EAX loaded with a 64-bit value (40_msr_access.md R190). -/
def setDatum (s : State) (v : Word64) : State :=
  { s with edx := v.extractLsb' 32 32, eax := v.extractLsb' 0 32 }

/-- `EIP <- EIP + n`, modulo 2^32 (00_scope.md R22). -/
def advance (n : Word32) (s : State) : State := { s with eip := s.eip + n }

/-- `v with [lo+w-1:lo] := f` (00_scope.md R18). -/
def setField {w : Nat} (v : Word64) (lo : Nat) (f : BitVec w) : Word64 :=
  (v &&& ~~~((BitVec.allOnes w).setWidth 64 <<< lo)) ||| (f.setWidth 64 <<< lo)

/-- One bit as a field. -/
def bitOf (b : Bool) : BitVec 1 := BitVec.ofBool b

/-- `L2Busy`, which is BBL_CR_BUSY bit 0 (10_state.md R57, R84). -/
def l2Busy (s : State) : Bool := (s.getMsr addrBblBusy).getLsbD 0

/-- The request a trigger builds from the registers' current values (41_l2_commands.md R231, R232). -/
def requestOf (s : State) : L2Request where
  cfg     := s.getMsr addrBblCtl3
  cmd     := (s.getMsr addrBblCtl).extractLsb' 0 5
  stateTo := (s.getMsr addrBblCtl).extractLsb' 5 2
  wayTo   := (s.getMsr addrBblCtl).extractLsb' 8 2
  userEcc := (s.getMsr addrBblCtl).getLsbD 18
  addr    := (s.getMsr addrBblAddr).extractLsb' 3 29
  d0      := s.getMsr addrBblD0
  d1      := s.getMsr addrBblD1
  d2      := s.getMsr addrBblD2
  d3      := s.getMsr addrBblD3
  ecc     := (s.getMsr addrBblDecc).extractLsb' 0 8

/-- BBL_CR_CTL with a response in its bits 16, 13:12 and 11:10 (41_l2_commands.md R233). -/
def ctlWithResponse (v : Word64) (r : L2Response) : Word64 :=
  setField (setField (setField v 16 (bitOf r.hit)) 12 r.stateFrom) 10 r.wayFrom

end Sys2Proof.Machine
end

