-- ==== Sys2Proof/Machine/Ops.lean ====
section
/-! DEFINITION. The shared operations: the program text and fetching, taking an exception, the checks and
effects of an MSR access (40_msr_access.md), the L2's trigger and completion (41_l2_commands.md), the
hardware agent (10_state.md R33), and who moves next. -/

namespace Sys2Proof.Machine

/-- What a step of this machine answers. -/
abbrev Answer := Host.Outcome State Fault Refusal

/-- The two ways an instruction ends without a next state (00_scope.md R20). -/
inductive Stop where
  | fault (f : Fault)
  | refuse (r : Refusal)
deriving DecidableEq, Repr

/-- A stop as a step's answer. -/
def answerStop : Stop → Answer
  | .fault f => .fault f
  | .refuse r => .refused r

/-- The answer with its next state changed. -/
def afterNext (f : State → State) : Answer → Answer
  | .next s => .next (f s)
  | .fault r => .fault r
  | .refused r => .refused r

/-- TAKING THE EXCEPTION GP(0) (60_exceptions.md R275): the spec describes no vector table, no saved state
and no handler, so the exception is the outcome `fault` of the step; the state it leaves is the one the
instruction began in (the exception is precise) and the run ends there. There is no return from it (R276). -/
def raiseGP (_ : State) : Answer := .fault .gp0

/-- A free 64-bit value, `draw_64()`, under no law (00_scope.md R19). -/
def drawValue (s : State) : Word64 := Config.draw64 s.draws

/-- The state after a draw. -/
def afterDraw (s : State) : State := { s with draws := s.draws + 1 }

/-! The program text (20_memory.md R131, R152). -/

/-- The byte of the program text at an address, if it holds one. -/
def textByte? (m : List Host.Cell) (a : Addr) : Option Byte := storeGet? m a.toNat

/-- The program text with one byte placed. No instruction does this (20_memory.md R152): it stands for
loading the program from outside. -/
def textPlace (m : List Host.Cell) (a : Addr) (b : Byte) : List Host.Cell := storeSet m a.toNat b

/-- The program text with bytes placed from an address on, modulo 2^32. -/
def textPlaceAll (m : List Host.Cell) (a : Addr) : List Byte → List Host.Cell
  | [] => m
  | b :: bs => textPlaceAll (textPlace m a b) (a + 1) bs

/-- The canonical form of the program text: addresses rising, all below 2^32. -/
abbrev Memory.wf (m : List Host.Cell) : Prop := storeSorted m ∧ ∀ c ∈ m, c.1 < 2 ^ 32

/-- At most n bytes of the program text from an address on, modulo 2^32, as far as it holds them. -/
def bytesAt (m : List Host.Cell) (a : Addr) : Nat → List Byte
  | 0 => []
  | n + 1 =>
    match textByte? m a with
    | some b => b :: bytesAt m (a + 1) n
    | none => []

/-- The decoding of the bytes at EIP (30_encoding.md R160, R164): five bytes, the longest instruction, or as
many as the program text holds. -/
def fetch (s : State) : Decoded := decodeBytes (bytesAt s.program s.eip 5)

/-! Reading an MSR (40_msr_access.md R190, R198). -/

/-- What the register level of a read answers. -/
inductive ReadResult where
  | value (v : Word64) (s : State)
  | stop (st : Stop)
deriving DecidableEq, Repr

/-- A read that returns a draw. -/
def readDraw (s : State) : ReadResult := .value (drawValue s) (afterDraw s)

/-- `ReadValue(a)` for a present register (40_msr_access.md R198, R204, R205, R209). -/
def readPresent (a : Addr) (s : State) : ReadResult :=
  if a = addrBblTrig then .stop (.refuse (.writeOnlyMsr a))
  else if a = addrBiosUpdtTrig then readDraw s
  else if busyLocked a && l2Busy s then .stop (.refuse (.l2Busy a))
  else .value (s.getMsr a) s

/-- `ReadMSR(a)`, the register level of RDMSR (00_scope.md R7, 40_msr_access.md Pseudocode R190). -/
def readMsr (a : Addr) (s : State) : ReadResult :=
  match avail s.params a with
  | .unlisted => .stop (.refuse (.unlistedMsr a))
  | .notEstablished => .stop (.refuse (.notEstablished a))
  | .faults => .stop (.fault .gp0)
  | .silent => readDraw s
  | .notImplemented =>
    match notImplPolicy s.params .read a with
    | .refuse => .stop (.refuse (.notImplemented a))
    | .fault => .stop (.fault .gp0)
    | .silent => readDraw s
  | .present => readPresent a s

/-! Writing an MSR (40_msr_access.md R191, R199 to R213). -/

/-- Whether two values differ on a mask. -/
def differOn (mask x y : Word64) : Bool := (x ^^^ y) &&& mask != 0

/-- A policy applied to a datum that differs, or not, in bits software may not change (R199, R200). -/
def policyCheck (p : WritePolicy) (differs : Bool) (r : Refusal) : Option Stop :=
  if differs then
    match p with
    | .preserve => some (.refuse r)
    | .ignore => none
    | .fault => some (.fault .gp0)
  else none

/-- The reserved bits R199 speaks of: those of Table R212, but for BBL_CR_ADDR bits 2:0, whose own rule is
stricter and does not depend on the parameter (R199, R206). -/
def checkedReserved (a : Addr) (m : Masks) : Word64 :=
  if a = addrBblAddr then m.rsv &&& 0xFFFFFFFFFFFFFFF8 else m.rsv

/-- The reserved and unlisted bits of a datum (R199). -/
def reservedCheck (p : Params) (a : Addr) (m : Masks) (held v : Word64) : Option Stop :=
  policyCheck p.reservedWrite (differOn (checkedReserved a m) held v) (.reservedBits a)

/-- The read-only bits of a datum (R200). -/
def readOnlyCheck (p : Params) (a : Addr) (m : Masks) (held v : Word64) : Option Stop :=
  policyCheck p.readOnlyWrite (differOn m.ro held v) (.readOnlyBits a)

/-- `LegalValue` for the registers without a field table (R201, R213). -/
def legalCheck (p : Params) (a : Addr) (w : WriteRule) (v : Word64) : Option Stop :=
  match w with
  | .legal _ => if legalValue p a v then none else some (.refuse (.illegalValue a))
  | _ => none

/-- APICBASE bit 11, "Permanent til reset" (R203). -/
def apicCheck (a : Addr) (held v : Word64) : Option Stop :=
  if a = addrApicBase ∧ apicEnabled held = false ∧ apicEnabled v = true then some (.refuse .apicReenable) else none

/-- BBL_CR_ADDR bits 2:0, "Reserved Set to 0." (R206). -/
def addrCheck (a : Addr) (v : Word64) : Option Stop :=
  if a = addrBblAddr ∧ v.extractLsb' 0 3 ≠ 0 then some (.refuse .addrLowBits) else none

/-- BBL_CR_CTL3 bits 17:13, the listed cache size codes (R208). -/
def sizeCheck (a : Addr) (v : Word64) : Option Stop :=
  if a = addrBblCtl3 ∧ cacheSizeBytes? (v.extractLsb' 13 5) = none then
    some (.refuse (.cacheSizeCode (v.extractLsb' 13 5)))
  else none

/-- The BBL registers, BBL_CR_BUSY among them, while a command is in progress (R209; 70_reset_and_hazards.md
R332; log 26). -/
def busyCheck (a : Addr) (s : State) : Option Stop :=
  if writeLocked a && l2Busy s then some (.refuse (.l2Busy a)) else none

/-- The first check that fails decides the outcome (R211). -/
def firstStop : List (Option Stop) → Option Stop
  | [] => none
  | none :: t => firstStop t
  | some st :: _ => some st

/-- The checks of a write to a register that holds a value, in the order of R211. -/
def writeChecks (a : Addr) (w : WriteRule) (v : Word64) (s : State) : List (Option Stop) :=
  let m := writeMasks w
  let held := s.getMsr a
  [reservedCheck s.params a m held v, readOnlyCheck s.params a m held v, legalCheck s.params a w v,
    apicCheck a held v, addrCheck a v, sizeCheck a v, busyCheck a s]

/-- The value a write leaves: the writable bits of the datum, every other bit as held (R202); BBL_CR_ADDR by
the formula of R206, which zeroes bits 2:0. -/
def writtenValue (a : Addr) (m : Masks) (held v : Word64) : Word64 :=
  if a = addrBblAddr then (held &&& 0xFFFFFFFF00000000) ||| (v &&& 0x00000000FFFFFFF8)
  else (held &&& ~~~m.rw) ||| (v &&& m.rw)

/-- A write to a register that holds a value (R202). -/
def writeHeld (a : Addr) (w : WriteRule) (v : Word64) (s : State) : Answer :=
  match firstStop (writeChecks a w v s) with
  | some st => answerStop st
  | none => .next (s.setMsr a (writtenValue a (writeMasks w) (s.getMsr a) v))

/-- The MSR file with BBL_CR_BUSY bit 0 set or cleared. -/
def busyMsr (b : Bool) (f : List (Nat × Word64)) : List (Nat × Word64) :=
  msrSet f addrBblBusy (setField (msrGet f addrBblBusy) 0 (bitOf b))

/-- The trigger's effect: latch the request, set BBL_CR_BUSY[0]; nothing else changes (41_l2_commands.md R232). -/
def latchCommand (s : State) : State := { s with l2Pending := some (requestOf s), msr := busyMsr true s.msr }

/-- A WRMSR to BBL_CR_TRIG (40_msr_access.md R204, R209; 41_l2_commands.md R232, R236). -/
def triggerL2 (v : Word64) (s : State) : Answer :=
  if v ≠ 0 then .refused .triggerNotZero
  else if l2Busy s then .refused (.l2Busy addrBblTrig)
  else if decodeL2 (requestOf s).cmd = none then .refused (.triggerUnassigned (requestOf s).cmd)
  else .next (latchCommand s)

/-- `WriteEffect(a, v)` for a present register, by the rule of its row (40_msr_access.md R202 to R213). -/
def writePresent (a : Addr) (v : Word64) (s : State) : Answer :=
  match msrRow? a with
  | none => .refused (.unlistedMsr a)
  | some r =>
    match r.rule with
    | .masked m => writeHeld a (.masked m) v s
    | .legal rsv => writeHeld a (.legal rsv) v s
    | .trigger => triggerL2 v s
    | .biosTrigger => .refused .biosUpdate
    | .noRegister => .refused (.notImplemented a)

/-- `WriteMSR(a, v)`, the register level of WRMSR (00_scope.md R7, 40_msr_access.md Pseudocode R191). -/
def writeMsr (a : Addr) (v : Word64) (s : State) : Answer :=
  match avail s.params a with
  | .unlisted => .refused (.unlistedMsr a)
  | .notEstablished => .refused (.notEstablished a)
  | .faults => raiseGP s
  | .silent => .next s
  | .notImplemented =>
    match notImplPolicy s.params .write a with
    | .refuse => .refused (.notImplemented a)
    | .fault => raiseGP s
    | .silent => .next s
  | .present => writePresent a v s

/-! The L2 engine (41_l2_commands.md R231, R233). -/

/-- The MSR file with values put for addresses, in order. -/
def msrPutAll (f : List (Nat × Word64)) : List (Addr × Word64) → List (Nat × Word64)
  | [] => f
  | (a, v) :: t => msrPutAll (msrSet f a v) t

/-- What a completion writes into the MSR file (R233): the response fields of BBL_CR_CTL, the four chunks, the
ECC byte, and BUSY cleared. -/
def responseWrites (r : L2Response) (f : List (Nat × Word64)) : List (Addr × Word64) :=
  [(addrBblCtl, ctlWithResponse (msrGet f addrBblCtl) r), (addrBblD0, r.d0), (addrBblD1, r.d1), (addrBblD2, r.d2),
    (addrBblD3, r.d3), (addrBblDecc, setField (msrGet f addrBblDecc) 0 r.ecc),
    (addrBblBusy, setField (msrGet f addrBblBusy) 0 (bitOf false))]

/-- The completion of a command with a given answer of `L2Exec` (R233): the new L2, the response in the
fields the engine writes, BUSY cleared, the latch empty. No other MSR bit changes. -/
def commandDone (out : L2State × L2Response) (s : State) : State :=
  { s with l2 := out.1, l2Pending := none, msr := msrPutAll s.msr (responseWrites out.2 s.msr) }

/-- The engine's one enabled step, for the command of a given code (R233, R240 to R247): while busy with that
command latched, one answer of `L2Exec`, a free value, completes it. Otherwise no such step is enabled. -/
def completeCommand (c : BitVec 5) (s : State) : Answer :=
  match s.l2Pending with
  | some req =>
    if l2Busy s = true ∧ req.cmd = c then
      .next (afterDraw (commandDone (Config.l2Exec req s.l2 s.draws) s))
    else .refused (.l2CommandNotLatched c)
  | none => .refused (.l2CommandNotLatched c)

/-! The hardware agent and the order of the agents (10_state.md R33, 20_memory.md R149). -/

/-- The rows the hardware agent may change: classed HW and present on this Model (10_state.md Table R33). -/
def hwRows (p : Params) : List MsrRow := msrTable.filter fun r => r.hw && avail p r.addr == .present

/-- Each listed row's register replaced by what the hardware agent leaves there. -/
def hwReplace (n : Nat) (f : List (Nat × Word64)) : List MsrRow → List (Nat × Word64)
  | [] => f
  | r :: rs => hwReplace n (msrSet f r.addr (Config.hwUpdate n r.addr (msrGet f r.addr))) rs

/-- One step of `HwUpdate` (10_state.md R33). -/
def hwStep (s : State) : State := afterDraw { s with msr := hwReplace s.draws s.msr (hwRows s.params) }

/-- The agent that moves: the one whose turn it is; the engine's step is enabled only while busy (R233), and
its turn falls to the core where it is not. -/
def mover (s : State) : Agent :=
  match s.turn with
  | .core => .core
  | .hardware => .hardware
  | .l2Engine => if l2Busy s then .l2Engine else .core

/-- The turn passes on: which agent moves next is free (20_memory.md R149). -/
def handOver (s : State) : State := { s with turn := Config.agentTurn s.draws, draws := s.draws + 1 }

/-! Placing an instruction where the next step takes it. -/

/-- Instruction bytes placed at EIP, the core to move. -/
def placeBytes (bs : List Byte) (s : State) : State :=
  { s with program := textPlaceAll s.program s.eip bs, turn := .core }

/-- An L2 command placed as WRMSR would leave it: its code in BBL_CR_CTL[4:0], the request latched, BUSY
set (41_l2_commands.md R232); the engine to move. -/
def placeCommand (c : BitVec 5) (s : State) : State :=
  { latchCommand (s.setMsr addrBblCtl (setField (s.getMsr addrBblCtl) 0 c)) with turn := .l2Engine }

/-- A code placed where the very next step takes it. -/
def placeCode : Code → State → State
  | .bytes bs, s => placeBytes bs s
  | .l2cmd c, s => placeCommand c s

end Sys2Proof.Machine
end

