-- ==== Sys2Proof/Machine/AuxMov.lean ====
section
/-! DEFINITION. The auxiliary MOV r32, imm32 in its three forms (42_aux_mov.md R260, R261): it runs at every
CPL and changes one register and EIP. -/

namespace Sys2Proof.Machine

/-- MOV EAX, imm32 (42_aux_mov.md R260). -/
def execMovEax (imm : Word32) (s : State) : Answer := .next (advance 5 { s with eax := imm })

/-- MOV ECX, imm32 (42_aux_mov.md R260). -/
def execMovEcx (imm : Word32) (s : State) : Answer := .next (advance 5 { s with ecx := imm })

/-- MOV EDX, imm32 (42_aux_mov.md R260). -/
def execMovEdx (imm : Word32) (s : State) : Answer := .next (advance 5 { s with edx := imm })

end Sys2Proof.Machine
end

