-- ==== Sys2Proof/Machine/L2Commands.lean ====
section
/-! DEFINITION. The eight L2 commands as the engine executes them (41_l2_commands.md R233, R240 to R247): the
completion of the latched request of that code. What a command does to the L2 and what it returns is the
OPEN `L2Exec` (R231), which receives the code, both MESI states (R239) and every operand in the request. -/

namespace Sys2Proof.Machine

/-- RLU, "Data Read w/ LRU update" (R240). -/
def execRlu (s : State) : Answer := completeCommand 0b01100 s

/-- TRR, "Tag Read w/ Data Read" (R241). -/
def execTrr (s : State) : Answer := completeCommand 0b01110 s

/-- TI, "Tag Inquire" (R242). -/
def execTi (s : State) : Answer := completeCommand 0b01111 s

/-- CR, "L2 Control Register Read" (R243). -/
def execCr (s : State) : Answer := completeCommand 0b00010 s

/-- CW, "L2 Control Register Write" (R244). -/
def execCw (s : State) : Answer := completeCommand 0b00011 s

/-- TWR, "Tag Write w/ Data Read", code 010ss (R245). -/
def execTwr (m : Mesi) (s : State) : Answer := completeCommand ((0b010 : BitVec 3) ++ mesiCode m) s

/-- TWW, "Tag Write w/ Data Write", code 111ss (R246). -/
def execTww (m : Mesi) (s : State) : Answer := completeCommand ((0b111 : BitVec 3) ++ mesiCode m) s

/-- TW, "Tag Write", code 100ss (R247). -/
def execTw (m : Mesi) (s : State) : Answer := completeCommand ((0b100 : BitVec 3) ++ mesiCode m) s

end Sys2Proof.Machine
end

