-- ==== Sys2Proof/Machine/MsrAccess.lean ====
section
/-! DEFINITION. The MSR access instructions RDMSR and WRMSR (40_msr_access.md). -/

namespace Sys2Proof.Machine

/-- RDMSR (40_msr_access.md R190, R192): at CPL 0, EDX:EAX is loaded with what the register level answers. -/
def execRdmsr (s : State) : Answer :=
  if s.cpl ≠ 0 then raiseGP s
  else
    match readMsr (msrAddress s) s with
    | .value v s' => .next (advance 2 (setDatum s' v))
    | .stop st => answerStop st

/-- WRMSR (40_msr_access.md R191, R192): at CPL 0, EDX:EAX is written at the register level. -/
def execWrmsr (s : State) : Answer :=
  if s.cpl ≠ 0 then raiseGP s
  else afterNext (advance 2) (writeMsr (msrAddress s) (datum s) s)

end Sys2Proof.Machine
end

