-- ==== Sys2Proof/Machine/Dispatch.lean ====
section
/-! DEFINITION. What each instruction does: one arm per row of the opcode table. -/

namespace Sys2Proof.Machine

def exec (i : Instr) (s : State) : Host.Outcome State Fault Refusal :=
  match i with
  | .rdmsr => Sys2Proof.Machine.execRdmsr s
  | .wrmsr => Sys2Proof.Machine.execWrmsr s
  | .movEax imm => Sys2Proof.Machine.execMovEax imm s
  | .movEcx imm => Sys2Proof.Machine.execMovEcx imm s
  | .movEdx imm => Sys2Proof.Machine.execMovEdx imm s
  | .rlu => Sys2Proof.Machine.execRlu s
  | .trr => Sys2Proof.Machine.execTrr s
  | .ti => Sys2Proof.Machine.execTi s
  | .cr => Sys2Proof.Machine.execCr s
  | .cw => Sys2Proof.Machine.execCw s
  | .twr m => Sys2Proof.Machine.execTwr m s
  | .tww m => Sys2Proof.Machine.execTww m s
  | .tw m => Sys2Proof.Machine.execTw m s

end Sys2Proof.Machine
end

