-- ==== Sys2Proof/Machine/Step.lean ====
section
/-! DEFINITION. One step of the machine: the agent whose turn it is moves once, and the turn passes on. -/

namespace Sys2Proof.Machine

/-- The core's step: the instruction at EIP (30_encoding.md R160, R164). -/
def coreStep (s : State) : Answer :=
  match fetch s with
  | .ok i _ => afterNext handOver (exec i s)
  | .refused e => .refused (.undecodable e)

/-- The L2 engine's step: the command of the latched request (41_l2_commands.md R233). In a state where the
latch is empty while BUSY is set (no run reaches one) there is no command to decode. -/
def engineStep (s : State) : Answer :=
  match s.l2Pending with
  | some req =>
    match decode (.l2cmd req.cmd) with
    | .ok i _ => afterNext handOver (exec i s)
    | .refused e => .refused (.undecodable e)
  | none => .refused (.undecodable .textEnds)

/-- The hardware agent's step (10_state.md R33). -/
def hardwareStep (s : State) : Answer := .next (handOver (hwStep s))

/-- One step of the machine. -/
def step (s : State) : Host.Outcome State Fault Refusal :=
  match mover s with
  | .core => coreStep s
  | .hardware => hardwareStep s
  | .l2Engine => engineStep s

/-- The state with an opcode-table word placed where the very next step takes its instruction: bytes at EIP
with the core to move, or a latched L2 command with the engine to move (log 13, log 20). -/
def State.withFetchWord (s : State) (nbits w : Nat) : State := placeCode (codeOfTableWord nbits w) s

end Sys2Proof.Machine
end

