-- ==== Sys2Proof/Safety.lean ====
section
/-! DEFINITION. The terms claims use: an answer's parts, safe steps, and the invariants of the machine. -/

namespace Sys2Proof.Machine

/-- The next state of an answer, if it is one. -/
def nextState? : Answer → Option State
  | .next s => some s
  | _ => none

/-- The fault of an answer, if it is one. -/
def faultOf? : Answer → Option Fault
  | .fault f => some f
  | _ => none

/-- The refusal of an answer, if it is one. -/
def refusalOf? : Answer → Option Refusal
  | .refused r => some r
  | _ => none

/-- A step that answers a next state. -/
def SafeStep (s : State) : Prop := ∃ t, step s = .next t

/-- The states a run from `s` reaches. -/
inductive Reaches (s : State) : State → Prop where
  | refl : Reaches s s
  | next {t u : State} : Reaches s t → step t = .next u → Reaches s u

/-- The MSR file and the program text are in canonical form. -/
def StoresCanonical (s : State) : Prop := MsrFile.wf s.msr ∧ Memory.wf s.program

/-- The L2 engine's latch is coherent (10_state.md R84; 40_msr_access.md R209; 41_l2_commands.md R232, R236): it
is full exactly while BUSY is set, it is then the request the registers still spell, and its code is a
command's. -/
def LatchCoherent (s : State) : Prop :=
  (l2Busy s = true → s.l2Pending = some (requestOf s) ∧ (decodeL2 (requestOf s).cmd).isSome = true) ∧
  (l2Busy s = false → s.l2Pending = none)

/-- The machine's invariant. -/
def Inv (s : State) : Prop := StoresCanonical s ∧ LatchCoherent s ∧ paramsWellFormed s.params = true

end Sys2Proof.Machine
end

