-- ==== Sys2Proof/Certificates/Slice0/Obligations.lean ====
section
/-! DEFINITION. The statements for the provers. Each docstring names the rules of spec/ it formalises. A rule
the spec itself marks as its decision or its derivation is cited by a statement of basis 'derived'. -/

namespace Sys2Proof.Machine

/-! The tables of the spec the statements quantify over, written out from spec/ and not from the model's rows. -/

/-- The 82 addresses of Table B-1 (20_memory.md R132). -/
def listedAddrs : List Addr :=
  [0x0, 0x1, 0x10, 0x11, 0x12, 0x13, 0x1B, 0x2A, 0x33, 0x79, 0x88, 0x89, 0x8A, 0x8B, 0xC1, 0xC2, 0xFE] ++
  [0x116, 0x118, 0x119, 0x11A, 0x11B, 0x11E, 0x179, 0x17A, 0x17B, 0x186, 0x187, 0x1D9, 0x1DB, 0x1DC, 0x1DD, 0x1DE,
    0x1E0] ++
  [0x200, 0x201, 0x202, 0x203, 0x204, 0x205, 0x206, 0x207, 0x208, 0x209, 0x20A, 0x20B, 0x20C, 0x20D, 0x20E, 0x20F] ++
  [0x250, 0x258, 0x259, 0x268, 0x269, 0x26A, 0x26B, 0x26C, 0x26D, 0x26E, 0x26F, 0x2FF] ++
  [0x400, 0x401, 0x402, 0x403, 0x404, 0x405, 0x406, 0x407, 0x408, 0x409, 0x40A, 0x40B, 0x40C, 0x40D, 0x40E, 0x40F,
    0x410, 0x411, 0x412, 0x413]

/-- The six registers "not implemented in the P6 family processors" (40_msr_access.md R197). -/
def notImplementedAddrs : List Addr := [0x403, 0x407, 0x40B, 0x40E, 0x40F, 0x413]

/-- The name-only registers (10_state.md R35; 40_msr_access.md R201), MCn_STATUS apart. -/
def nameOnlyAddrs : List Addr :=
  [0x0, 0x1, 0x10, 0x11, 0x12, 0x13, 0xC1, 0xC2, 0xFE, 0x179, 0x17A, 0x17B, 0x1DB, 0x1DC, 0x1DD, 0x1DE] ++
  [0x200, 0x201, 0x202, 0x203, 0x204, 0x205, 0x206, 0x207, 0x208, 0x209, 0x20A, 0x20B, 0x20C, 0x20D, 0x20E, 0x20F] ++
  [0x250, 0x258, 0x259, 0x268, 0x269, 0x26A, 0x26B, 0x26C, 0x26D, 0x26E, 0x26F] ++
  [0x400, 0x402, 0x404, 0x406, 0x408, 0x40A, 0x40C, 0x410, 0x412]

/-- The five MCn_STATUS (40_msr_access.md R213). -/
def mcStatusAddrs : List Addr := [0x401, 0x405, 0x409, 0x40D, 0x411]

/-- The registers and fields classed HW, the BBL registers apart (10_state.md Table R33). -/
def hwAddrs : List Addr :=
  [0x0, 0x1, 0x10, 0x12, 0x13, 0xC1, 0xC2, 0x17A, 0x401, 0x405, 0x409, 0x40D, 0x411, 0x402, 0x406, 0x40A, 0x412,
    0x1DB, 0x1DC, 0x1DD, 0x1DE]

/-- The nine registers R209 locks to reads and writes while a command is in progress (40_msr_access.md R209). -/
def lockedAddrs : List Addr := [0x88, 0x89, 0x8A, 0x8B, 0x116, 0x118, 0x119, 0x11A, 0x11E]

/-- The registers locked to writes then: those nine and BBL_CR_BUSY (70_reset_and_hazards.md R332; decision D18). -/
def writeLockedAddrs : List Addr := lockedAddrs ++ [0x11B]

/-- A row of Table R212: address, writable, read-only and reserved masks. -/
structure MaskRow where
  addr : Addr
  rw   : Word64
  ro   : Word64
  rsv  : Word64

/-- 40_msr_access.md Table R212, but for BBL_CR_ADDR (R206) and MCn_STATUS (R213). -/
def maskRows : List MaskRow := [
  ⟨0x1B, 0x00000000FFFFF800, 0x0000000000000100, 0xFFFFFFFF000006FF⟩,
  ⟨0x2A, 0x00000000040000DE, 0x0000000001F3F700, 0xFFFFFFFFFA0C0821⟩,
  ⟨0x33, 0x00000000C0000000, 0x0000000000000000, 0xFFFFFFFF3FFFFFFF⟩,
  ⟨0x88, 0xFFFFFFFFFFFFFFFF, 0x0000000000000000, 0x0000000000000000⟩,
  ⟨0x89, 0xFFFFFFFFFFFFFFFF, 0x0000000000000000, 0x0000000000000000⟩,
  ⟨0x8A, 0xFFFFFFFFFFFFFFFF, 0x0000000000000000, 0x0000000000000000⟩,
  ⟨0x8B, 0xFFFFFFFFFFFFFFFF, 0x0000000000000000, 0x0000000000000000⟩,
  ⟨0x118, 0x00000000000000FF, 0x0000000000000000, 0xFFFFFFFFFFFFFF00⟩,
  ⟨0x119, 0x000000000004037F, 0x0000000000013C00, 0xFFFFFFFFFFFAC080⟩,
  ⟨0x11B, 0x0000000000000000, 0x0000000000000001, 0xFFFFFFFFFFFFFFFE⟩,
  ⟨0x11E, 0x000000000077E1FF, 0x0000000002801E00, 0xFFFFFFFFFD080000⟩,
  ⟨0x186, 0x00000000FFDFFFFF, 0x0000000000000000, 0xFFFFFFFF00200000⟩,
  ⟨0x187, 0x00000000FF9FFFFF, 0x0000000000000000, 0xFFFFFFFF00600000⟩,
  ⟨0x1D9, 0x000000000000C07F, 0x0000000000000000, 0xFFFFFFFFFFFF3F80⟩,
  ⟨0x1E0, 0x0000000000000004, 0x0000000000000000, 0xFFFFFFFFFFFFFFFB⟩,
  ⟨0x2FF, 0x0000000000000C07, 0x0000000000000000, 0xFFFFFFFFFFFFF3F8⟩]

/-- The ten registers locked to writes, with the masks a write to each is checked by: those of Table R212, but for
BBL_CR_ADDR bits 2:0 (40_msr_access.md R199, R206) and BBL_CR_TRIG, which holds no value (R204). -/
def lockedRows : List MaskRow :=
  (maskRows.filter fun m => writeLockedAddrs.contains m.addr) ++
    [⟨0x116, 0xFFFFFFF8, 0, 0xFFFFFFFF00000000⟩, ⟨0x11A, 0, 0, 0⟩]

/-- The register's own check of a datum, for the three of the ten that have one (40_msr_access.md R204, R206, R208). -/
def ownCheckHolds (a : Addr) (v : Word64) : Prop :=
  (a = 0x116 → v.extractLsb' 0 3 = 0) ∧ (a = 0x11A → v = 0) ∧
    (a = 0x11E → v.extractLsb' 13 5 ∈ ([1, 2, 4, 8, 16] : List (BitVec 5)))

/-- The command in progress, BBL_CR_BUSY bit 0 (10_state.md R57). -/
def commandInProgress (s : State) : Prop := (s.getMsr 0x11B).getLsbD 0 = true

/-- An access that reaches the register ECX names: CPL 0 and the register present (40_msr_access.md R190 to R193). -/
def accesses (s : State) (a : Addr) : Prop := s.cpl = 0 ∧ s.ecx = a ∧ avail s.params a = .present

/-- The policy lets a datum that differs on a mask from the held value pass (40_msr_access.md R199, R200). -/
def passes (p : WritePolicy) (mask held v : Word64) : Prop := p = .ignore ∨ (held ^^^ v) &&& mask = 0

/-- The datum of a WRMSR, `EDX ++ EAX` (40_msr_access.md Pseudocode R191). -/
def writeDatum (s : State) : Word64 := s.edx ++ s.eax

/-- The state after a completed RDMSR of a value (40_msr_access.md Pseudocode R190). -/
def afterRead (s : State) (v : Word64) : State :=
  { s with edx := v.extractLsb' 32 32, eax := v.extractLsb' 0 32, eip := s.eip + 2 }

/-- The state after a completed WRMSR that leaves a value in a register (40_msr_access.md Pseudocode R191). -/
def afterWrite (s : State) (a : Addr) (v : Word64) : State := { s with msr := msrSet s.msr a v, eip := s.eip + 2 }

/-- The effect of a completed L2 command on the state, by the answer of `L2Exec` (41_l2_commands.md R233): the
new L2, the response in the HW fields, BUSY cleared, no other MSR bit changed. The latch is emptied, since 10_state.md
R84 has it only while BUSY is 1 (log 21). -/
structure CommandEffect (out : L2State × L2Response) (s t : State) : Prop where
  l2        : t.l2 = out.1
  latch     : t.l2Pending = none
  hit       : (t.getMsr 0x119).getLsbD 16 = out.2.hit
  stateFrom : (t.getMsr 0x119).extractLsb' 12 2 = out.2.stateFrom
  wayFrom   : (t.getMsr 0x119).extractLsb' 10 2 = out.2.wayFrom
  ctlElse   : ∀ k, k ∉ [10, 11, 12, 13, 16] → (t.getMsr 0x119).getLsbD k = (s.getMsr 0x119).getLsbD k
  chunk0    : t.getMsr 0x88 = out.2.d0
  chunk1    : t.getMsr 0x89 = out.2.d1
  chunk2    : t.getMsr 0x8A = out.2.d2
  chunk3    : t.getMsr 0x8B = out.2.d3
  ecc       : (t.getMsr 0x118).extractLsb' 0 8 = out.2.ecc
  eccElse   : ∀ k, 8 ≤ k → (t.getMsr 0x118).getLsbD k = (s.getMsr 0x118).getLsbD k
  busy      : (t.getMsr 0x11B).getLsbD 0 = false
  busyElse  : ∀ k, 1 ≤ k → (t.getMsr 0x11B).getLsbD k = (s.getMsr 0x11B).getLsbD k
  msrElse   : ∀ a, a ∉ [0x119, 0x88, 0x89, 0x8A, 0x8B, 0x118, 0x11B] → t.getMsr a = s.getMsr a
  frame     : t = { s with l2 := t.l2, l2Pending := t.l2Pending, msr := t.msr, draws := s.draws + 1 }

end Sys2Proof.Machine

open Sys2Proof Sys2Proof.Machine

/-! Encoding. -/

/-- One word of every row of the opcode table, its bytes or its code those of 30_encoding.md R161, R162 and R170,
decodes to the row's instruction. How a word numbers the bytes (RDMSR, match 0F32 in R177, is the word 320FH of 16
bits), the zero immediate of a one-byte MOV row, and 0FH of 8 bits being TI are the model's choice (log 20). -/
def Obligations.TableWordsDecode : Prop :=
  decodeTableWord 16 0x320F = some .rdmsr ∧ decodeTableWord 16 0x300F = some .wrmsr ∧
  decodeTableWord 8 0xB8 = some (.movEax 0) ∧ decodeTableWord 8 0xB9 = some (.movEcx 0) ∧
  decodeTableWord 8 0xBA = some (.movEdx 0) ∧ decodeTableWord 8 0x0C = some .rlu ∧
  decodeTableWord 8 0x0E = some .trr ∧ decodeTableWord 8 0x0F = some .ti ∧ decodeTableWord 8 0x02 = some .cr ∧
  decodeTableWord 8 0x03 = some .cw ∧ decodeTableWord 8 0x08 = some (.twr .invalid) ∧
  decodeTableWord 8 0x1C = some (.tww .invalid) ∧ decodeTableWord 8 0x10 = some (.tw .invalid) ∧
  decode (.bytes [0xB8, 0x78, 0x56, 0x34, 0x12]) = .ok (.movEax 0x12345678) []

/-- Decode and encode agree: for every instruction, with every operand, decoding its code gives it back, and
leaves the bytes after it (30_encoding.md R161 to R163, R170). -/
def Obligations.DecodeOfEncodeGivesTheInstruction : Prop :=
  ∀ (i : Instr) (rest : List Byte), decode (codeThen (encode i) rest) =
    .ok i (match encode i with | .bytes _ => rest | .l2cmd _ => [])

/-- Each accepted code has one meaning: what decodes to an instruction is that instruction's code
(30_encoding.md R164, R170, R171). -/
def Obligations.AcceptedCodeIsTheEncoding : Prop :=
  (∀ bs i rest, decodeBytes bs = .ok i rest → ∃ e, encode i = .bytes e ∧ bs = e ++ rest) ∧
  (∀ c i, decodeL2 c = some i → encode i = .l2cmd c)

/-- The decoder reads byte 0: after 0FH byte 1 must be 32H or 30H; B8H, B9H and BAH take four immediate bytes,
least significant first; any other byte 0 is refused (30_encoding.md R162 to R164; decision D31). -/
def Obligations.DecoderAdmitsOnlyThreeForms : Prop :=
  (∀ b rest, decodeBytes (0x0F :: b :: rest) =
    if b = 0x32 then .ok .rdmsr rest else if b = 0x30 then .ok .wrmsr rest else .refused (.secondByte b)) ∧
  (∀ b1 b2 b3 b4 rest,
    decodeBytes (0xB8 :: b1 :: b2 :: b3 :: b4 :: rest) = .ok (.movEax (b4 ++ b3 ++ b2 ++ b1)) rest ∧
    decodeBytes (0xB9 :: b1 :: b2 :: b3 :: b4 :: rest) = .ok (.movEcx (b4 ++ b3 ++ b2 ++ b1)) rest ∧
    decodeBytes (0xBA :: b1 :: b2 :: b3 :: b4 :: rest) = .ok (.movEdx (b4 ++ b3 ++ b2 ++ b1)) rest) ∧
  (∀ b rest, b ∈ ([0xB8, 0xB9, 0xBA] : List Byte) → rest.length < 4 → decodeBytes (b :: rest) = .refused .textEnds) ∧
  (∀ b rest, b ∉ ([0x0F, 0xB8, 0xB9, 0xBA] : List Byte) → ∃ e, decodeBytes (b :: rest) = .refused e)

/-- The 32 values of BBL_CR_CTL[4:0]: seventeen commands, fifteen unassigned (30_encoding.md R171). -/
def Obligations.L2CommandCodesAsTabulated : Prop :=
  ((List.range 32).map fun n => decodeL2 (BitVec.ofNat 5 n)) =
    [none, none, some .cr, some .cw, none, none, none, none,
      some (.twr .invalid), some (.twr .shared), some (.twr .exclusive), some (.twr .modified),
      some .rlu, none, some .trr, some .ti,
      some (.tw .invalid), some (.tw .shared), some (.tw .exclusive), some (.tw .modified), none, none, none, none,
      none, none, none, none, some (.tww .invalid), some (.tww .shared), some (.tww .exclusive), some (.tww .modified)]

/-! Steps. -/

/-- A step runs the decoded instruction: where the core moves and the bytes at EIP decode to i, the step is
exec of i, and then the turn passes on (30_encoding.md R160, R164; the turn is the model's own, log 12). -/
def Obligations.StepRunsTheDecodedInstruction : Prop :=
  ∀ s i rest, mover s = .core → decodeBytes (bytesAt s.program s.eip 5) = .ok i rest →
    step s = match exec i s with
      | .next u => .next { u with turn := Config.agentTurn u.draws, draws := u.draws + 1 }
      | .fault f => .fault f
      | .refused r => .refused r

/-- Where the engine moves, the step is exec of the latched command (41_l2_commands.md R233, R240 to R247; the
turn is the model's own, log 12). -/
def Obligations.StepRunsTheLatchedCommand : Prop :=
  ∀ s req i, s.turn = .l2Engine → commandInProgress s → s.l2Pending = some req → decodeL2 req.cmd = some i →
    step s = match exec i s with
      | .next u => .next { u with turn := Config.agentTurn u.draws, draws := u.draws + 1 }
      | .fault f => .fault f
      | .refused r => .refused r

/-- Bytes the decoder refuses stop the core's step by name, never by an exception (30_encoding.md R164, R175;
decision D31). -/
def Obligations.UndecodableBytesAreRefused : Prop :=
  ∀ s e, mover s = .core → decodeBytes (bytesAt s.program s.eip 5) = .refused e →
    step s = .refused (.undecodable e)

/-- A word placed by withFetchWord is the very next instruction, from every state (log 13, log 20). -/
def Obligations.PlacedWordRunsNext : Prop :=
  ∀ (s : State) (nbits w : Nat) (i : Instr), decodeTableWord nbits w = some i →
    step (s.withFetchWord nbits w) = match exec i (s.withFetchWord nbits w) with
      | .next u => .next { u with turn := Config.agentTurn u.draws, draws := u.draws + 1 }
      | .fault f => .fault f
      | .refused r => .refused r

/-! The auxiliary MOV. -/

/-- MOV EAX, ECX, EDX, imm32 at every CPL: the register takes the immediate, EIP advances by 5 modulo 2^32,
nothing else changes (42_aux_mov.md R260; general knowledge, decision D31). -/
def Obligations.MovLoadsItsRegister : Prop :=
  ∀ (n : Word32) (s : State),
    exec (.movEax n) s = .next { s with eax := n, eip := s.eip + 5 } ∧
    exec (.movEcx n) s = .next { s with ecx := n, eip := s.eip + 5 } ∧
    exec (.movEdx n) s = .next { s with edx := n, eip := s.eip + 5 }

/-! Reaching a register. -/

/-- RDMSR and WRMSR at CPL 1, 2 or 3 raise GP(0), whatever the address and the datum (40_msr_access.md R192;
general knowledge, decision D30). -/
def Obligations.MsrAccessNeedsPrivilegeZero : Prop :=
  ∀ s : State, s.cpl ≠ 0 → exec .rdmsr s = .fault .gp0 ∧ exec .wrmsr s = .fault .gp0

/-- The class of every access, the same for reads and writes: Table R193 (40_msr_access.md R193; decisions
D9 and D40). -/
def Obligations.AvailabilityOfEveryAddress : Prop :=
  ∀ (p : Params) (a : Addr), avail p a =
    if a ∉ listedAddrs then .unlisted
    else if a = 0x10 then .present
    else if a = 0x0 ∨ a = 0x1 then (if p.model = .pentium then .present else .silent)
    else if a = 0x11 ∨ a = 0x12 ∨ a = 0x13 then (if p.model = .pentium then .present else .faults)
    else if p.model = .pentium then .notEstablished
    else if p.model = .p6 ∧ a ∈ p.shaded then .notEstablished
    else if a ∈ notImplementedAddrs then .notImplemented
    else .present

/-- RDMSR at CPL 0 of a register that is not present: refused where the table lists or establishes none, GP(0)
at 11H to 13H on the P6 family, a draw at 0H and 1H there, and by NotImplAccess for the six not implemented
(40_msr_access.md R190, R194 to R197; decisions D7 to D10, D28). -/
def Obligations.RdmsrWithoutARegister : Prop :=
  ∀ s : State, s.cpl = 0 →
    (avail s.params s.ecx = .unlisted → exec .rdmsr s = .refused (.unlistedMsr s.ecx)) ∧
    (avail s.params s.ecx = .notEstablished → exec .rdmsr s = .refused (.notEstablished s.ecx)) ∧
    (avail s.params s.ecx = .faults → exec .rdmsr s = .fault .gp0) ∧
    (avail s.params s.ecx = .silent →
      exec .rdmsr s = .next { afterRead s (Config.draw64 s.draws) with draws := s.draws + 1 }) ∧
    (avail s.params s.ecx = .notImplemented → exec .rdmsr s =
      match notImplPolicy s.params .read s.ecx with
      | .refuse => .refused (.notImplemented s.ecx)
      | .fault => .fault .gp0
      | .silent => .next { afterRead s (Config.draw64 s.draws) with draws := s.draws + 1 })

/-- WRMSR at CPL 0 of a register that is not present: as RDMSR, but a silent write completes and changes nothing
but EIP (40_msr_access.md R191, R194 to R197; decisions D7 to D10, D28). -/
def Obligations.WrmsrWithoutARegister : Prop :=
  ∀ s : State, s.cpl = 0 →
    (avail s.params s.ecx = .unlisted → exec .wrmsr s = .refused (.unlistedMsr s.ecx)) ∧
    (avail s.params s.ecx = .notEstablished → exec .wrmsr s = .refused (.notEstablished s.ecx)) ∧
    (avail s.params s.ecx = .faults → exec .wrmsr s = .fault .gp0) ∧
    (avail s.params s.ecx = .silent → exec .wrmsr s = .next { s with eip := s.eip + 2 }) ∧
    (avail s.params s.ecx = .notImplemented → exec .wrmsr s =
      match notImplPolicy s.params .write s.ecx with
      | .refuse => .refused (.notImplemented s.ecx)
      | .fault => .fault .gp0
      | .silent => .next { s with eip := s.eip + 2 })

/-- On the P6 family 11H, 12H and 13H fault; 0H, 1H and 10H do not, and 0H and 1H give no meaningful data: a
draw on a read, nothing kept on a write (70_reset_and_hazards.md R337). That the fault is GP(0) is R195 (general
knowledge, decision D7); the draw and the write that keeps nothing are R194 (decision D10; log 10). -/
def Obligations.PentiumAddressesOnTheP6Family : Prop :=
  ∀ s : State, s.cpl = 0 → s.params.model ≠ .pentium →
    (s.ecx = 0x11 ∨ s.ecx = 0x12 ∨ s.ecx = 0x13 → exec .rdmsr s = .fault .gp0 ∧ exec .wrmsr s = .fault .gp0) ∧
    (s.ecx = 0x0 ∨ s.ecx = 0x1 →
      exec .rdmsr s = .next { afterRead s (Config.draw64 s.draws) with draws := s.draws + 1 } ∧
      exec .wrmsr s = .next { s with eip := s.eip + 2 }) ∧
    (s.ecx = 0x10 → exec .rdmsr s = .next (afterRead s (s.getMsr 0x10)) ∧ ∀ f, exec .wrmsr s ≠ .fault f)

/-! RDMSR of a present register. -/

/-- RDMSR completes, and returns the held 64 bits, reserved and unlisted bits included, at every present register
but BBL_CR_TRIG and BIOS_UPDT_TRIG and, while a command is in progress, the registers it locks
(40_msr_access.md R190; decisions D6, D25). -/
def Obligations.RdmsrReturnsTheHeldValue : Prop :=
  ∀ (s : State) (a : Addr), accesses s a → a ≠ 0x11A → a ≠ 0x79 → (a ∈ lockedAddrs → ¬commandInProgress s) →
    exec .rdmsr s = .next (afterRead s (s.getMsr a))

/-- `ReadValue(a)` of a present register: the held value, with the three exceptions the rule names, and no state
but EDX, EAX and EIP changed, a draw's counter, the model's own, apart (40_msr_access.md R198). -/
def Obligations.ReadValueOfAPresentRegister : Prop :=
  ∀ (s : State) (a : Addr), accesses s a →
    (a = 0x11A → exec .rdmsr s = .refused (.writeOnlyMsr a)) ∧
    (a = 0x79 → exec .rdmsr s = .next { afterRead s (Config.draw64 s.draws) with draws := s.draws + 1 }) ∧
    (a ∈ ([0x88, 0x89, 0x8A, 0x8B, 0x116, 0x118, 0x119, 0x11E] : List Addr) → commandInProgress s →
      exec .rdmsr s = .refused (.l2Busy a)) ∧
    (a ∉ ([0x11A, 0x79, 0x88, 0x89, 0x8A, 0x8B, 0x116, 0x118, 0x119, 0x11E] : List Addr) ∨
        (a ∈ ([0x88, 0x89, 0x8A, 0x8B, 0x116, 0x118, 0x119, 0x11E] : List Addr) ∧ ¬commandInProgress s) →
      exec .rdmsr s = .next (afterRead s (s.getMsr a)))

/-- Whatever an RDMSR that completes changes is EAX, EDX, EIP (by 2) and, for a draw, the draw counter: no MSR, no
other register, no byte of memory, no part of the L2 (40_msr_access.md R190, R198). -/
def Obligations.RdmsrFrame : Prop :=
  ∀ s t : State, exec .rdmsr s = .next t →
    t = { s with eax := t.eax, edx := t.edx, eip := s.eip + 2, draws := t.draws } ∧
    (t.draws = s.draws ∨ t.draws = s.draws + 1) ∧ ∀ a, textByte? t.program a = textByte? s.program a

/-! WRMSR of a present register. -/

/-- WRMSR completes and stores the datum's writable bits, keeping every other bit, in each register of Table
R212 but for BBL_CR_ADDR (R206, WrmsrOfBblAddr) and MCn_STATUS (R213, WrmsrOfAnMcStatus), where reserved and read-only bits pass, no command locks it, the APIC enable is not set again and
the cache size code is listed (40_msr_access.md R202, R212; derived). -/
def Obligations.WrmsrStoresTheWritableBits : Prop :=
  ∀ (s : State), ∀ m ∈ maskRows, accesses s m.addr →
    passes s.params.reservedWrite m.rsv (s.getMsr m.addr) (writeDatum s) →
    passes s.params.readOnlyWrite m.ro (s.getMsr m.addr) (writeDatum s) →
    (m.addr ∈ writeLockedAddrs → ¬commandInProgress s) →
    (m.addr = 0x1B → (s.getMsr 0x1B).getLsbD 11 = true ∨ (writeDatum s).getLsbD 11 = false) →
    (m.addr = 0x11E → (writeDatum s).extractLsb' 13 5 ∈ ([1, 2, 4, 8, 16] : List (BitVec 5))) →
    exec .wrmsr s = .next (afterWrite s m.addr ((s.getMsr m.addr &&& ~~~m.rw) ||| (writeDatum s &&& m.rw)))

/-- A datum that differs in a reserved or unlisted bit is refused under preserve and raises GP(0) under fault,
whatever else it holds (40_msr_access.md R199, R211; decisions D11, D25). -/
def Obligations.WrmsrReservedBitsPolicy : Prop :=
  ∀ (s : State), ∀ m ∈ maskRows, accesses s m.addr →
    (s.getMsr m.addr ^^^ writeDatum s) &&& m.rsv ≠ 0 →
    (s.params.reservedWrite = .preserve → exec .wrmsr s = .refused (.reservedBits m.addr)) ∧
    (s.params.reservedWrite = .fault → exec .wrmsr s = .fault .gp0)

/-- Past the reserved bits, a datum that differs in a read-only bit is refused under preserve and raises GP(0)
under fault (40_msr_access.md R200, R211; decisions D12, D25). -/
def Obligations.WrmsrReadOnlyBitsPolicy : Prop :=
  ∀ (s : State), ∀ m ∈ maskRows, accesses s m.addr →
    passes s.params.reservedWrite m.rsv (s.getMsr m.addr) (writeDatum s) →
    (s.getMsr m.addr ^^^ writeDatum s) &&& m.ro ≠ 0 →
    (s.params.readOnlyWrite = .preserve → exec .wrmsr s = .refused (.readOnlyBits m.addr)) ∧
    (s.params.readOnlyWrite = .fault → exec .wrmsr s = .fault .gp0)

/-- A name-only register takes the whole datum where LegalValue holds, and the write is refused where it does not
(40_msr_access.md R201; decision D35). -/
def Obligations.WrmsrOfANameOnlyRegister : Prop :=
  ∀ (s : State) (a : Addr), a ∈ nameOnlyAddrs → accesses s a → exec .wrmsr s =
    if legalValue s.params a (writeDatum s) = true then .next (afterWrite s a (writeDatum s))
    else .refused (.illegalValue a)

/-- MCn_STATUS: a datum that differs in the unlisted bits 56:32 is refused under preserve and raises GP(0) under
fault; past them the register takes the datum where LegalValue holds, bits 56:32 kept
(40_msr_access.md R199, R201, R213; decisions D11, D35, log 16). -/
def Obligations.WrmsrOfAnMcStatus : Prop :=
  ∀ (s : State) (a : Addr), a ∈ mcStatusAddrs → accesses s a →
    (passes s.params.reservedWrite 0x01FFFFFF00000000 (s.getMsr a) (writeDatum s) → exec .wrmsr s =
      if legalValue s.params a (writeDatum s) = true then
        .next (afterWrite s a
          ((s.getMsr a &&& 0x01FFFFFF00000000) ||| (writeDatum s &&& 0xFE000000FFFFFFFF)))
      else .refused (.illegalValue a)) ∧
    ((s.getMsr a ^^^ writeDatum s) &&& 0x01FFFFFF00000000 ≠ 0 →
      (s.params.reservedWrite = .preserve → exec .wrmsr s = .refused (.reservedBits a)) ∧
      (s.params.reservedWrite = .fault → exec .wrmsr s = .fault .gp0))

/-- APICBASE bit 11: a datum that sets the cleared enable is refused, one that passes the other checks is else
admitted and takes its bit 11 (40_msr_access.md R203; decision D16). -/
def Obligations.WrmsrOfApicBaseIsSticky : Prop :=
  ∀ s : State, accesses s 0x1B →
    passes s.params.reservedWrite 0xFFFFFFFF000006FF (s.getMsr 0x1B) (writeDatum s) →
    passes s.params.readOnlyWrite 0x100 (s.getMsr 0x1B) (writeDatum s) →
    if (s.getMsr 0x1B).getLsbD 11 = false ∧ (writeDatum s).getLsbD 11 = true then
      exec .wrmsr s = .refused .apicReenable
    else ∃ t, exec .wrmsr s = .next t ∧ (t.getMsr 0x1B).getLsbD 11 = (writeDatum s).getLsbD 11

/-- BBL_CR_ADDR: bits 2:0 of the datum must be zero, else the write is refused; bits 63:32 follow R199; then bits
31:3 take the datum's bits and bits 2:0 become zero whatever they held (40_msr_access.md R206). The settings of the
second clause are R199 (decision D11); that bits 63:32 are checked before bits 2:0 is the order of R211 (decision
D25; log 17). -/
def Obligations.WrmsrOfBblAddr : Prop :=
  ∀ s : State, accesses s 0x116 → ¬commandInProgress s →
    (passes s.params.reservedWrite 0xFFFFFFFF00000000 (s.getMsr 0x116) (writeDatum s) → exec .wrmsr s =
      if (writeDatum s).extractLsb' 0 3 ≠ 0 then .refused .addrLowBits
      else .next (afterWrite s 0x116
        ((s.getMsr 0x116 &&& 0xFFFFFFFF00000000) ||| (writeDatum s &&& 0x00000000FFFFFFF8)))) ∧
    ((s.getMsr 0x116 ^^^ writeDatum s) &&& 0xFFFFFFFF00000000 ≠ 0 →
      (s.params.reservedWrite = .preserve → exec .wrmsr s = .refused (.reservedBits 0x116)) ∧
      (s.params.reservedWrite = .fault → exec .wrmsr s = .fault .gp0))

/-- BBL_CR_CTL: bits 18, 9:8, 6:5 and 4:0 take the datum's bits, any five-bit command among them, and every other
bit is kept; bits 16, 13:12 and 11:10 follow R200 (40_msr_access.md R207). The settings of the last clause are R200
(decision D12; the parameter is log 1). -/
def Obligations.WrmsrOfBblCtl : Prop :=
  ∀ s : State, accesses s 0x119 → ¬commandInProgress s →
    passes s.params.reservedWrite 0xFFFFFFFFFFFAC080 (s.getMsr 0x119) (writeDatum s) →
    (passes s.params.readOnlyWrite 0x13C00 (s.getMsr 0x119) (writeDatum s) →
      ∃ v, exec .wrmsr s = .next (afterWrite s 0x119 v) ∧ ∀ k, v.getLsbD k =
        if k ∈ [0, 1, 2, 3, 4, 5, 6, 8, 9, 18] then (writeDatum s).getLsbD k else (s.getMsr 0x119).getLsbD k) ∧
    ((s.getMsr 0x119 ^^^ writeDatum s) &&& 0x13C00 ≠ 0 →
      (s.params.readOnlyWrite = .preserve → exec .wrmsr s = .refused (.readOnlyBits 0x119)) ∧
      (s.params.readOnlyWrite = .fault → exec .wrmsr s = .fault .gp0))

/-- BBL_CR_CTL3: past the reserved and read-only bits, a datum whose bits 17:13 are none of the five listed codes
is refused, whether or not a command is in progress (40_msr_access.md R208; decision D29; that R209 comes after it
is the model's order, log 17). -/
def Obligations.WrmsrOfBblCtl3NeedsAListedSize : Prop :=
  ∀ s : State, accesses s 0x11E →
    passes s.params.reservedWrite 0xFFFFFFFFFD080000 (s.getMsr 0x11E) (writeDatum s) →
    passes s.params.readOnlyWrite 0x2801E00 (s.getMsr 0x11E) (writeDatum s) →
    (writeDatum s).extractLsb' 13 5 ∉ ([1, 2, 4, 8, 16] : List (BitVec 5)) →
    exec .wrmsr s = .refused (.cacheSizeCode ((writeDatum s).extractLsb' 13 5))

/-- BBL_CR_BUSY is not software's to write: a WRMSR that completes changes nothing but EIP (the MSR file holds the
same values, and is the same list where it is canonical, log 24); under the default settings it completes exactly
with the held value as datum and no command in progress (40_msr_access.md R210, derived; decision D18, log 26). -/
def Obligations.WrmsrCannotWriteBusy : Prop :=
  ∀ s : State, accesses s 0x11B →
    (∀ t, exec .wrmsr s = .next t →
      t = { s with msr := t.msr, eip := s.eip + 2 } ∧ (∀ a, t.getMsr a = s.getMsr a) ∧
      (MsrFile.wf s.msr → t = { s with eip := s.eip + 2 })) ∧
    (s.params.reservedWrite = .preserve → s.params.readOnlyWrite = .preserve →
      ((∃ t, exec .wrmsr s = .next t) ↔ writeDatum s = s.getMsr 0x11B ∧ ¬commandInProgress s))

/-- A WRMSR of 0 to BBL_CR_TRIG latches the request built from the registers' current values and sets BBL_CR_BUSY
bit 0, and changes nothing else; a datum that is not 0, a command in progress and an unassigned code are
refused (40_msr_access.md R204, R209; 41_l2_commands.md R231, R232, R236; decisions D17, D18, D29; which refusal
is answered where several hold is the model's order, log 17). -/
def Obligations.WrmsrTriggerLatchesTheCommand : Prop :=
  ∀ s : State, accesses s 0x11A →
    (writeDatum s ≠ 0 → exec .wrmsr s = .refused .triggerNotZero) ∧
    (writeDatum s = 0 → commandInProgress s → exec .wrmsr s = .refused (.l2Busy 0x11A)) ∧
    (writeDatum s = 0 → ¬commandInProgress s → decodeL2 ((s.getMsr 0x119).extractLsb' 0 5) = none →
      exec .wrmsr s = .refused (.triggerUnassigned ((s.getMsr 0x119).extractLsb' 0 5))) ∧
    (writeDatum s = 0 → ¬commandInProgress s → decodeL2 ((s.getMsr 0x119).extractLsb' 0 5) ≠ none →
      exec .wrmsr s = .next { afterWrite s 0x11B (s.getMsr 0x11B ||| 1) with
        l2Pending := some {
          cfg := s.getMsr 0x11E, cmd := (s.getMsr 0x119).extractLsb' 0 5,
          stateTo := (s.getMsr 0x119).extractLsb' 5 2, wayTo := (s.getMsr 0x119).extractLsb' 8 2,
          userEcc := (s.getMsr 0x119).getLsbD 18, addr := (s.getMsr 0x116).extractLsb' 3 29,
          d0 := s.getMsr 0x88, d1 := s.getMsr 0x89, d2 := s.getMsr 0x8A, d3 := s.getMsr 0x8B,
          ecc := (s.getMsr 0x118).extractLsb' 0 8 } })

/-- BBL_CR_TRIG is written with zero only, and never read: any other access is refused (70_reset_and_hazards.md
R333 tells software so; the refusals are 40_msr_access.md R204, decision D17). -/
def Obligations.TriggerIsWrittenWithZeroAndNeverRead : Prop :=
  ∀ s : State, accesses s 0x11A →
    (∃ r, exec .rdmsr s = .refused r) ∧ (writeDatum s ≠ 0 → ∃ r, exec .wrmsr s = .refused r)

/-- While a command is in progress the hazard is enforced by refusal: no BBL register is read or written, a read of
BBL_CR_BUSY apart. No WRMSR of one completes, under any setting of the parameters; one whose reserved and read-only
bits pass is refused, by the name l2Busy where the register's own check holds too (70_reset_and_hazards.md R332;
40_msr_access.md R209; decision D18; BBL_CR_BUSY as one of them is log 26, the order of the checks log 17). -/
def Obligations.LockedRegistersWaitForTheEngine : Prop :=
  ∀ (s : State) (a : Addr), accesses s a → commandInProgress s →
    (a ∈ lockedAddrs → ∃ r, exec .rdmsr s = .refused r) ∧
    (a = 0x11B → exec .rdmsr s = .next (afterRead s (s.getMsr 0x11B))) ∧
    (a ∈ writeLockedAddrs → (∀ t, exec .wrmsr s ≠ .next t) ∧
      (s.params.reservedWrite = .preserve → s.params.readOnlyWrite = .preserve → ∃ r, exec .wrmsr s = .refused r)) ∧
    (∀ m ∈ lockedRows, m.addr = a → passes s.params.reservedWrite m.rsv (s.getMsr a) (writeDatum s) →
      passes s.params.readOnlyWrite m.ro (s.getMsr a) (writeDatum s) →
      (∃ r, exec .wrmsr s = .refused r) ∧
      (ownCheckHolds a (writeDatum s) → exec .wrmsr s = .refused (.l2Busy a)))

/-- BIOS_UPDT_TRIG holds no value: a read is a draw, a write is refused (40_msr_access.md R205; decision D21). -/
def Obligations.BiosUpdateTriggerHoldsNoValue : Prop :=
  ∀ s : State, accesses s 0x79 →
    exec .rdmsr s = .next { afterRead s (Config.draw64 s.draws) with draws := s.draws + 1 } ∧
    exec .wrmsr s = .refused .biosUpdate

/-- Whatever a WRMSR that completes changes is EIP (by 2) and one MSR: the one ECX names or, for BBL_CR_TRIG,
BBL_CR_BUSY and the latch; EAX, ECX, EDX and every byte of memory are unchanged (40_msr_access.md R191). -/
def Obligations.WrmsrFrame : Prop :=
  ∀ s t : State, exec .wrmsr s = .next t →
    t = { s with msr := t.msr, l2Pending := t.l2Pending, eip := s.eip + 2 } ∧
    (s.ecx ≠ 0x11A → t.l2Pending = s.l2Pending) ∧
    (∀ a, a ≠ (if s.ecx = 0x11A then 0x11B else s.ecx) → t.getMsr a = s.getMsr a) ∧
    ∀ a, textByte? t.program a = textByte? s.program a

/-! The L2 commands. -/

/-- Each of the eight commands RLU, TRR, TI, CR, CW, TWR, TWW and TW completes while it is the command in progress,
with the effect of the completion rule, for whatever L2Exec answers (41_l2_commands.md R233, R240 to R247;
decision D18; that the command is the engine's completion is log 18; that the latch is then empty is read from
10_state.md R84, log 21). -/
def Obligations.L2CommandsComplete : Prop :=
  ∀ (s : State) (req : L2Request), commandInProgress s → s.l2Pending = some req →
    (req.cmd = 0b01100 → ∃ t, exec .rlu s = .next t ∧ CommandEffect (Config.l2Exec req s.l2 s.draws) s t) ∧
    (req.cmd = 0b01110 → ∃ t, exec .trr s = .next t ∧ CommandEffect (Config.l2Exec req s.l2 s.draws) s t) ∧
    (req.cmd = 0b01111 → ∃ t, exec .ti s = .next t ∧ CommandEffect (Config.l2Exec req s.l2 s.draws) s t) ∧
    (req.cmd = 0b00010 → ∃ t, exec .cr s = .next t ∧ CommandEffect (Config.l2Exec req s.l2 s.draws) s t) ∧
    (req.cmd = 0b00011 → ∃ t, exec .cw s = .next t ∧ CommandEffect (Config.l2Exec req s.l2 s.draws) s t) ∧
    (∀ m, req.cmd = (0b010 : BitVec 3) ++ mesiCode m →
      ∃ t, exec (.twr m) s = .next t ∧ CommandEffect (Config.l2Exec req s.l2 s.draws) s t) ∧
    (∀ m, req.cmd = (0b111 : BitVec 3) ++ mesiCode m →
      ∃ t, exec (.tww m) s = .next t ∧ CommandEffect (Config.l2Exec req s.l2 s.draws) s t) ∧
    (∀ m, req.cmd = (0b100 : BitVec 3) ++ mesiCode m →
      ∃ t, exec (.tw m) s = .next t ∧ CommandEffect (Config.l2Exec req s.l2 s.draws) s t)

/-- The engine has no step but for the command in progress: an L2 command that is not the latched one of a busy
engine is refused by name (41_l2_commands.md section 1; the model's own name for a step that is not enabled,
log 18). -/
def Obligations.L2CommandsNeedTheLatch : Prop :=
  ∀ (s : State) (i : Instr) (c : BitVec 5), encode i = .l2cmd c →
    (¬commandInProgress s ∨ ∀ req, s.l2Pending = some req → req.cmd ≠ c) →
    exec i s = .refused (.l2CommandNotLatched c)

/-- The engine's step is enabled whenever it is busy: in a coherent state its turn completes the command and ends
the polling of BBL_CR_BUSY (41_l2_commands.md R233, R234; decision D18; no fairness of the turn is assumed, log 12;
that the latch is then empty is read from 10_state.md R84, log 21). -/
def Obligations.EngineTurnEndsTheCommand : Prop :=
  ∀ s : State, LatchCoherent s → s.turn = .l2Engine → commandInProgress s →
    ∃ t, step s = .next t ∧ ¬commandInProgress t ∧ t.l2Pending = none

/-! The hardware agent. -/

/-- A step of HwUpdate may replace any present register classed HW, by a value under no law, and changes no other
register, no context register, no memory and nothing of the L2 (10_state.md R33; decision D22; log 11). -/
def Obligations.HardwareAgentChangesOnlyItsRegisters : Prop :=
  ∀ s : State, s.turn = .hardware → ∃ t, step s = .next t ∧
    t = { s with msr := t.msr, turn := t.turn, draws := t.draws } ∧
    (∀ a, a ∈ hwAddrs → avail s.params a = .present → t.getMsr a = Config.hwUpdate s.draws a (s.getMsr a)) ∧
    (∀ a, a ∉ hwAddrs ∨ avail s.params a ≠ .present → t.getMsr a = s.getMsr a)

/-! Whole-machine rules and invariants. -/

/-- Every step keeps the MSR file and the program text in canonical form: addresses rising, only registers of the
table that hold a value, program addresses below 2^32 (the form is the model's, log 13 and log 24). -/
def Obligations.StepKeepsStoresCanonical : Prop :=
  ∀ s t : State, StoresCanonical s → step s = .next t → StoresCanonical t

/-- Every step keeps the L2's latch coherent: full exactly while BUSY is set, then the request the locked registers
still spell, its code a command's (10_state.md R84; 40_msr_access.md R209; 41_l2_commands.md R232, R233, R236). -/
def Obligations.StepKeepsLatchCoherent : Prop :=
  ∀ s t : State, LatchCoherent s → step s = .next t → LatchCoherent t

/-- The machine right after reset meets the invariant, for every well-formed setting of the parameters and on the
boot-strap processor or another (70_reset_and_hazards.md R325; the zero values are the model's, log 4). -/
def Obligations.ResetMeetsTheInvariant : Prop :=
  (∀ p b, paramsWellFormed p = true → Inv (State.resetWith p b)) ∧ Inv State.reset

/-- No step changes a read-only bit: APICBASE bit 8, the power-on configuration of EBL_CR_POWERON, the read-only
fields of BBL_CR_CTL3 (10_state.md R33; 40_msr_access.md R200; 70_reset_and_hazards.md R321, R328; decisions). -/
def Obligations.StepKeepsReadOnlyBits : Prop :=
  ∀ s t : State, step s = .next t →
    t.getMsr 0x1B &&& 0x100 = s.getMsr 0x1B &&& 0x100 ∧
    t.getMsr 0x2A &&& 0x1F3F700 = s.getMsr 0x2A &&& 0x1F3F700 ∧
    t.getMsr 0x11E &&& 0x2801E00 = s.getMsr 0x11E &&& 0x2801E00

/-- No step changes a reserved or unlisted bit of a described register, MCn_STATUS apart, under any setting of the
parameters; for BBL_CR_ADDR that is bits 63:32, since a write zeroes its bits 2:0. The unlisted bits 56:32 of an
MCn_STATUS, classed HW whole (10_state.md R74; log 11), no step of the core or the engine changes
(40_msr_access.md R199; decision D11). -/
def Obligations.StepKeepsReservedBits : Prop :=
  ∀ s t : State, step s = .next t →
    (∀ m ∈ maskRows, t.getMsr m.addr &&& m.rsv = s.getMsr m.addr &&& m.rsv) ∧
    t.getMsr 0x116 &&& 0xFFFFFFFF00000000 = s.getMsr 0x116 &&& 0xFFFFFFFF00000000 ∧
    (mover s ≠ .hardware → ∀ a ∈ mcStatusAddrs,
      t.getMsr a &&& 0x01FFFFFF00000000 = s.getMsr a &&& 0x01FFFFFF00000000)

/-- Clearing APICBASE bit 11 cannot be undone before the next reset: in every state a run reaches from one with
the bit clear, it is clear (70_reset_and_hazards.md R335). -/
def Obligations.ApicDisableIsPermanentUntilReset : Prop :=
  ∀ s t : State, Reaches s t → (s.getMsr 0x1B).getLsbD 11 = false → (t.getMsr 0x1B).getLsbD 11 = false

/-- No step changes the program text, the privilege level or the parameters (20_memory.md R131, R152;
60_exceptions.md R282; 00_scope.md R14; decisions D30, D41). -/
def Obligations.StepKeepsProgramPrivilegeAndParameters : Prop :=
  ∀ s t : State, step s = .next t → t.program = s.program ∧ t.cpl = s.cpl ∧ t.params = s.params

/-- A step faults only for the causes the spec lists: an RDMSR or WRMSR of the core, at CPL not 0, or of 11H to 13H
on the P6 family, or under a parameter set to fault (60_exceptions.md R271; general knowledge, decision D7). -/
def Obligations.FaultsHaveOnlyTheListedCauses : Prop :=
  ∀ (s : State) (f : Fault), step s = .fault f → mover s = .core ∧
    ∃ i rest, decodeBytes (bytesAt s.program s.eip 5) = .ok i rest ∧
      (s.cpl ≠ 0 ∧ (i = .rdmsr ∨ i = .wrmsr) ∨
       s.params.model ≠ .pentium ∧ s.ecx ∈ ([0x11, 0x12, 0x13] : List Addr) ∧ (i = .rdmsr ∨ i = .wrmsr) ∨
       i = .rdmsr ∧ s.ecx ∈ notImplementedAddrs ∧ notImplPolicy s.params .read s.ecx = .fault ∨
       i = .wrmsr ∧ s.ecx ∈ notImplementedAddrs ∧ notImplPolicy s.params .write s.ecx = .fault ∨
       i = .wrmsr ∧ (s.params.reservedWrite = .fault ∨ s.params.readOnlyWrite = .fault))

/-! Reset and the readings of the table. -/

/-- APICBASE bit 8 after reset is 1 on the boot-strap processor and 0 on every other (70_reset_and_hazards.md R323). -/
def Obligations.ResetBootStrapIndicator : Prop :=
  ∀ p, ((State.resetWith p true).getMsr 0x1B).getLsbD 8 = true ∧ ((State.resetWith p false).getMsr 0x1B).getLsbD 8 = false

/-- EBL_CR_POWERON bit 26 after reset is 1 on the Pentium II and 0 on the P6, and software may change it: a WRMSR
that completes leaves the datum's bit there (70_reset_and_hazards.md R324). -/
def Obligations.ResetLowPowerModeEnable : Prop :=
  (∀ p b, (p.model = .pentiumII → ((State.resetWith p b).getMsr 0x2A).getLsbD 26 = true) ∧
    (p.model = .p6 → ((State.resetWith p b).getMsr 0x2A).getLsbD 26 = false)) ∧
  ∀ s : State, accesses s 0x2A →
    passes s.params.reservedWrite 0xFFFFFFFFFA0C0821 (s.getMsr 0x2A) (writeDatum s) →
    passes s.params.readOnlyWrite 0x1F3F700 (s.getMsr 0x2A) (writeDatum s) →
    ∃ t, exec .wrmsr s = .next t ∧ (t.getMsr 0x2A).getLsbD 26 = (writeDatum s).getLsbD 26

/-- BBL_CR_BUSY bit 0 after reset is 0 and ROB_CR_BKUPTMPDR6 bit 2 is 1 (70_reset_and_hazards.md section 1; the
spec's decision D27, log 7). -/
def Obligations.ResetBusyAndFastString : Prop :=
  ∀ p b, ((State.resetWith p b).getMsr 0x11B).getLsbD 0 = false ∧ ((State.resetWith p b).getMsr 0x1E0).getLsbD 2 = true

/-- The bank registers are at 400H + 4i + k, the blocks i = 0 to 4 holding banks 0, 1, 2, 4, 3, k = 0 for CTL, 1 for
STATUS, 2 for ADDR, 3 for MISC; the table's rows have those names (10_state.md R78). -/
def Obligations.BankRegistersInTableOrder : Prop :=
  (([0, 1, 2, 4, 3] : List (Fin 5)).flatMap fun b => [bankAddr b .ctl, bankAddr b .status, bankAddr b .addr, bankAddr b .misc])
    = (List.range 20).map (fun n => BitVec.ofNat 32 (0x400 + n)) ∧
  ((List.range 20).map fun n => (msrRow? (BitVec.ofNat 32 (0x400 + n))).map MsrRow.name) =
    [some "MC0_CTL", some "MC0_STATUS", some "MC0_ADDR", some "MC0_MISC",
      some "MC1_CTL", some "MC1_STATUS", some "MC1_ADDR", some "MC1_MISC",
      some "MC2_CTL", some "MC2_STATUS", some "MC2_ADDR", some "MC2_MISC",
      some "MC4_CTL", some "MC4_STATUS", some "MC4_ADDR", some "MC4_MISC",
      some "MC3_CTL", some "MC3_STATUS", some "MC3_ADDR", some "MC3_MISC"]

/-- The eleven fixed-range MTRRs are the table's rows of those addresses and names, each with the size and the
start address its name carries (10_state.md R71). If each governs eight consecutive ranges of that size, the eleven
tile the first megabyte, 00000H to FFFFFH, exactly once, and none reaches above it (20_memory.md R143; derived from
the names alone). -/
def Obligations.FixedMtrrsTileTheFirstMegabyte : Prop :=
  (fixedMtrrs.map fun m => (m.addr, (msrRow? m.addr).map MsrRow.name, m.size, m.start)) =
    [(0x250, some "MTRRfix64K_00000", 64 * 1024, 0x00000), (0x258, some "MTRRfix16K_80000", 16 * 1024, 0x80000),
      (0x259, some "MTRRfix16K_A0000", 16 * 1024, 0xA0000), (0x268, some "MTRRfix4K_C0000", 4 * 1024, 0xC0000),
      (0x269, some "MTRRfix4K_C8000", 4 * 1024, 0xC8000), (0x26A, some "MTRRfix4K_D0000", 4 * 1024, 0xD0000),
      (0x26B, some "MTRRfix4K_D8000", 4 * 1024, 0xD8000), (0x26C, some "MTRRfix4K_E0000", 4 * 1024, 0xE0000),
      (0x26D, some "MTRRfix4K_E8000", 4 * 1024, 0xE8000), (0x26E, some "MTRRfix4K_F0000", 4 * 1024, 0xF0000),
      (0x26F, some "MTRRfix4K_F8000", 4 * 1024, 0xF8000)] ∧
  (∀ m ∈ fixedMtrrs, m.start + 8 * m.size ≤ 0x100000) ∧
  ∀ x : Nat, x < 0x100000 →
    ∃ m ∈ fixedMtrrs, (m.start ≤ x ∧ x < m.start + 8 * m.size) ∧
      ∀ m' ∈ fixedMtrrs, (m'.start ≤ x ∧ x < m'.start + 8 * m'.size) → m' = m
end

