-- ==== Sys2Proof/Laws/Store.lean ====
section
/-! SUPPORT. The sparse stores: reading what was written, leaving every other key alone, and keeping the
canonical form. The program text and the MSR file are instances. -/

namespace Sys2Proof.Machine

variable {α : Type}

/-- A key no entry has reads as none. -/
theorem storeGet_none {m : List (Nat × α)} {a : Nat} (h : ∀ e ∈ m, e.1 ≠ a) : storeGet? m a = none := by
  induction m with
  | nil => rfl
  | cons e t ih =>
    obtain ⟨k, w⟩ := e
    have hk : k ≠ a := h (k, w) (by simp)
    simp [storeGet?, hk, ih fun x hx => h x (List.mem_cons_of_mem _ hx)]

/-- What a key reads as is an entry. -/
theorem storeGet_mem {m : List (Nat × α)} {a : Nat} {v : α} (h : storeGet? m a = some v) : (a, v) ∈ m := by
  induction m with
  | nil => simp [storeGet?] at h
  | cons e t ih =>
    obtain ⟨k, w⟩ := e
    by_cases hk : k = a
    · subst hk
      obtain rfl : w = v := by simpa [storeGet?] using h
      simp
    · exact List.mem_cons_of_mem _ (ih (by simpa [storeGet?, hk] using h))

theorem storeGet_set_same (m : List (Nat × α)) (a : Nat) (v : α) : storeGet? (storeSet m a v) a = some v := by
  induction m with
  | nil => simp [storeSet, storeGet?]
  | cons e t ih =>
    obtain ⟨k, w⟩ := e
    simp only [storeSet]
    split
    · simp [storeGet?]
    · split
      · simp [storeGet?]
      · rename_i h; simpa [storeGet?, Ne.symm h] using ih

theorem storeGet_set_other (m : List (Nat × α)) {a b : Nat} (v : α) (h : b ≠ a) :
    storeGet? (storeSet m a v) b = storeGet? m b := by
  induction m with
  | nil => simp [storeSet, storeGet?, Ne.symm h]
  | cons e t ih =>
    obtain ⟨k, w⟩ := e
    simp only [storeSet]
    split
    · simp [storeGet?, Ne.symm h]
    · split
      · rename_i hk; subst hk; simp [storeGet?, Ne.symm h]
      · simp [storeGet?, ih]

theorem storeGet_erase_same (m : List (Nat × α)) (a : Nat) : storeGet? (storeErase m a) a = none := by
  induction m with
  | nil => rfl
  | cons e t ih =>
    obtain ⟨k, w⟩ := e
    by_cases h : k = a <;> simp [storeErase, storeGet?, h, ih]

theorem storeGet_erase_other (m : List (Nat × α)) {a b : Nat} (h : b ≠ a) :
    storeGet? (storeErase m a) b = storeGet? m b := by
  induction m with
  | nil => rfl
  | cons e t ih =>
    obtain ⟨k, w⟩ := e
    by_cases hk : k = a
    · subst hk; simp [storeErase, storeGet?, ih, Ne.symm h]
    · simp [storeErase, storeGet?, hk, ih]

theorem mem_storeSet {m : List (Nat × α)} {a : Nat} {v : α} {e : Nat × α} (h : e ∈ storeSet m a v) :
    e = (a, v) ∨ e ∈ m := by
  induction m with
  | nil => exact .inl (by simpa [storeSet] using h)
  | cons f t ih =>
    obtain ⟨k, w⟩ := f
    simp only [storeSet] at h
    split at h
    · simpa using h
    · split at h
      · rcases List.mem_cons.1 h with h | h
        · exact .inl h
        · exact .inr (List.mem_cons_of_mem _ h)
      · rcases List.mem_cons.1 h with h | h
        · exact .inr (by simp [h])
        · rcases ih h with h | h
          · exact .inl h
          · exact .inr (List.mem_cons_of_mem _ h)

theorem mem_storeErase {m : List (Nat × α)} {a : Nat} {e : Nat × α} (h : e ∈ storeErase m a) : e ∈ m := by
  induction m with
  | nil => exact h
  | cons f t ih =>
    obtain ⟨k, w⟩ := f
    simp only [storeErase] at h
    split at h
    · exact List.mem_cons_of_mem _ (ih h)
    · rcases List.mem_cons.1 h with h | h
      · simp [h]
      · exact List.mem_cons_of_mem _ (ih h)

theorem storeSorted_set {m : List (Nat × α)} (a : Nat) (v : α) (h : storeSorted m) : storeSorted (storeSet m a v) := by
  induction m with
  | nil => simp [storeSet, storeSorted]
  | cons e t ih =>
    obtain ⟨k, w⟩ := e
    obtain ⟨hk, ht⟩ := List.pairwise_cons.1 h
    simp only [storeSet]
    split
    · rename_i hlt
      refine List.pairwise_cons.2 ⟨fun x hx => ?_, h⟩
      rcases List.mem_cons.1 hx with rfl | hx
      · exact hlt
      · exact Nat.lt_trans hlt (hk x hx)
    · split
      · rename_i heq; subst heq
        exact List.pairwise_cons.2 ⟨hk, ht⟩
      · rename_i hnlt hne
        refine List.pairwise_cons.2 ⟨fun x hx => ?_, ih ht⟩
        rcases mem_storeSet hx with rfl | hx
        · show k < a
          omega
        · exact hk x hx

/-- Putting the value a key already has changes nothing. -/
theorem storeSet_get {m : List (Nat × α)} {a : Nat} {v : α} (h : storeSorted m) (hv : storeGet? m a = some v) :
    storeSet m a v = m := by
  induction m with
  | nil => simp [storeGet?] at hv
  | cons e t ih =>
    obtain ⟨k, w⟩ := e
    obtain ⟨hk, ht⟩ := List.pairwise_cons.1 h
    by_cases e : k = a
    · subst e
      obtain rfl : w = v := by simpa [storeGet?] using hv
      simp [storeSet]
    · have hv' : storeGet? t a = some v := by simpa [storeGet?, e] using hv
      have hlt : k < a := by
        by_contra hn
        have : storeGet? t a = none := storeGet_none fun x hx => by have := hk x hx; simp only at this; omega
        simp [this] at hv'
      simp [storeSet, Nat.not_lt.2 (Nat.le_of_lt hlt), Ne.symm e, ih ht hv']

/-- Erasing a key that has no value changes nothing. -/
theorem storeErase_none {m : List (Nat × α)} {a : Nat} (h : storeGet? m a = none) : storeErase m a = m := by
  induction m with
  | nil => rfl
  | cons e t ih =>
    obtain ⟨k, w⟩ := e
    by_cases e : k = a
    · simp [storeGet?, e] at h
    · simp [storeErase, e, ih (by simpa [storeGet?, e] using h)]

theorem storeSorted_erase {m : List (Nat × α)} (a : Nat) (h : storeSorted m) : storeSorted (storeErase m a) := by
  induction m with
  | nil => exact h
  | cons e t ih =>
    obtain ⟨k, w⟩ := e
    obtain ⟨hk, ht⟩ := List.pairwise_cons.1 h
    simp only [storeErase]
    split
    · exact ih ht
    · exact List.pairwise_cons.2 ⟨fun x hx => hk x (mem_storeErase hx), ih ht⟩

/-! The program text. -/

@[simp] theorem textByte_place_same (m : List Host.Cell) (a : Addr) (b : Byte) :
    textByte? (textPlace m a b) a = some b := storeGet_set_same m a.toNat b

theorem textByte_place_other (m : List Host.Cell) {a c : Addr} (b : Byte) (h : c ≠ a) :
    textByte? (textPlace m a b) c = textByte? m c :=
  storeGet_set_other m b fun e => h (BitVec.eq_of_toNat_eq e)

theorem memory_wf_place {m : List Host.Cell} (a : Addr) (b : Byte) (h : Memory.wf m) : Memory.wf (textPlace m a b) := by
  refine ⟨storeSorted_set _ _ h.1, fun c hc => ?_⟩
  rcases mem_storeSet hc with rfl | hc
  · exact a.isLt
  · exact h.2 c hc

theorem memory_wf_placeAll {m : List Host.Cell} (a : Addr) (bs : List Byte) (h : Memory.wf m) :
    Memory.wf (textPlaceAll m a bs) := by
  induction bs generalizing m a with
  | nil => exact h
  | cons b bs ih => exact ih (a + 1) (memory_wf_place a b h)

/-- The program text at reset, which lists nothing, has the canonical form. -/
theorem memory_wf_reset : Memory.wf State.reset.program := ⟨List.Pairwise.nil, fun _ h => nomatch h⟩

/-! The MSR file. -/

@[simp] theorem msrGet_set_same (f : List (Nat × Word64)) (a : Addr) (v : Word64) : msrGet (msrSet f a v) a = v := by
  unfold msrGet msrSet
  split
  · rename_i h; simp [storeGet_erase_same, h]
  · simp [storeGet_set_same]

theorem msrGet_set_other (f : List (Nat × Word64)) {a b : Addr} (v : Word64) (h : b ≠ a) :
    msrGet (msrSet f a v) b = msrGet f b := by
  have hn : b.toNat ≠ a.toNat := fun e => h (BitVec.eq_of_toNat_eq e)
  unfold msrGet msrSet
  split
  · rw [storeGet_erase_other f hn]
  · rw [storeGet_set_other f v hn]

theorem msrGet_set (f : List (Nat × Word64)) (a b : Addr) (v : Word64) :
    msrGet (msrSet f a v) b = if b = a then v else msrGet f b := by
  split
  · rename_i h; simp [h]
  · rename_i h; exact msrGet_set_other f v h

/-- Writing a row that holds a value keeps the MSR file canonical. -/
theorem msrFile_wf_set {f : List (Nat × Word64)} {r : MsrRow} (v : Word64) (h : MsrFile.wf f) (hr : r ∈ msrTable)
    (hv : holdsValue r = true) : MsrFile.wf (msrSet f r.addr v) := by
  unfold msrSet
  split
  · exact ⟨storeSorted_erase _ h.1, fun e he => h.2 e (mem_storeErase he)⟩
  · rename_i hz
    refine ⟨storeSorted_set _ _ h.1, fun e he => ?_⟩
    rcases mem_storeSet he with rfl | he
    · exact ⟨hz, r, hr, hv, rfl⟩
    · exact h.2 e he

/-- Writing the held value back changes nothing in a canonical file. -/
theorem msrSet_get {f : List (Nat × Word64)} (a : Addr) (h : MsrFile.wf f) : msrSet f a (msrGet f a) = f := by
  unfold msrSet msrGet
  cases hg : storeGet? f a.toNat with
  | none => simp [storeErase_none hg]
  | some v =>
    have hz : ¬v = 0 := (h.2 _ (storeGet_mem hg)).1
    rw [Option.getD_some, if_neg hz]
    exact storeSet_get h.1 hg

/-- The MSR file at reset has the canonical form. -/
theorem msrFile_wf_reset : MsrFile.wf State.reset.msr := by decide

end Sys2Proof.Machine
end

