-- ==== Sys2Proof/Laws/Msr.lean ====
section
/-! SUPPORT. Facts of Table B-1 as the model holds it: a row an address selects, the shape of the rows, and the
agreement of the field tables with the masks. -/

namespace Sys2Proof.Machine

/-- An address selects a row of the table, and that row has the address. -/
theorem msrRow_spec {a : Addr} {r : MsrRow} (h : msrRow? a = some r) : r ∈ msrTable ∧ r.addr = a :=
  ⟨List.mem_of_find?_eq_some h, by simpa using List.find?_some h⟩

theorem msrTable_length : msrTable.length = 82 := by decide

/-- A register locked to reads is locked to writes. -/
theorem writeLocked_of_busyLocked {a : Addr} (h : busyLocked a = true) : writeLocked a = true := by
  simp [writeLocked, h]

/-- BBL_CR_BUSY is locked to writes and not to reads. -/
theorem busy_row_locks : writeLocked addrBblBusy = true ∧ busyLocked addrBblBusy = false := by decide

/-- No two rows share an address. -/
theorem msrTable_addr_nodup : (msrTable.map MsrRow.addr).Nodup := by decide

/-- A listed access has a row. -/
theorem avail_listed {p : Params} {a : Addr} (h : avail p a ≠ .unlisted) : ∃ r, msrRow? a = some r := by
  unfold avail at h
  split at h
  · exact absurd rfl h
  · exact ⟨_, ‹_›⟩

/-- The availability of a row is that of its group. -/
theorem avail_of_row {p : Params} {a : Addr} {r : MsrRow} (h : msrRow? a = some r) :
    avail p a = availOfGroup p a r.group := by simp [avail, h]

/-- A register the hardware agent may change is name-only or an MCn_STATUS, holds a value, and is no BBL
register (10_state.md Table R33). -/
theorem hw_row_shape : ∀ r ∈ msrTable, r.hw = true →
    writeLocked r.addr = false ∧ r.addr ≠ addrBblBusy ∧ holdsValue r = true ∧
      (r.rule = .legal 0 ∨ r.rule = .legal 0x01FFFFFF00000000) := by decide

/-- The masks of Table R212 partition the 64 bits. -/
theorem masked_row_partition : ∀ r ∈ msrTable, ∀ m, r.rule = .masked m →
    m.rw &&& m.ro = 0 ∧ m.rw &&& m.rsv = 0 ∧ m.ro &&& m.rsv = 0 ∧ m.rw ||| m.ro ||| m.rsv = BitVec.allOnes 64 := by
  have h : (msrTable.all fun r => match r.rule with
      | .masked m => m.rw &&& m.ro == 0 && m.rw &&& m.rsv == 0 && m.ro &&& m.rsv == 0 &&
          m.rw ||| m.ro ||| m.rsv == BitVec.allOnes 64
      | _ => true) = true := by decide
  intro r hr m hm
  have := List.all_eq_true.1 h r hr
  rw [hm] at this
  simpa [and_assoc] using this

/-- The masks of Table R212 are those the field tables give. -/
theorem fieldTables_masks : ∀ e ∈ fieldTables, ∃ r, msrRow? e.1 = some r ∧ r.rule = .masked (masksOfFields e.2) := by
  have h : (fieldTables.all fun e => (msrRow? e.1).map MsrRow.rule == some (.masked (masksOfFields e.2))) = true := by
    decide
  intro e he
  have := List.all_eq_true.1 h e he
  simpa [and_comm] using this

/-! The rules of the rows with a rule of their own. -/

theorem row_bblTrig : (msrRow? addrBblTrig).map MsrRow.rule = some .trigger := by decide
theorem row_biosUpdtTrig : (msrRow? addrBiosUpdtTrig).map MsrRow.rule = some .biosTrigger := by decide
theorem row_bblBusy : (msrRow? addrBblBusy).map MsrRow.rule = some (.masked ⟨0, 1, 0xFFFFFFFFFFFFFFFE⟩) := by
  decide

/-- The addresses whose row triggers an L2 command: 11AH alone. -/
theorem trigger_row_addr : ∀ r ∈ msrTable, r.rule = .trigger → r.addr = addrBblTrig := by decide

/-- BBL_CR_BUSY's row has nothing software may write. -/
theorem busy_row_rule : ∀ r ∈ msrTable, r.addr = addrBblBusy → writeMasks r.rule = ⟨0, 1, 0xFFFFFFFFFFFFFFFE⟩ := by
  decide

/-- `holdsValue` by the rule of the row. -/
theorem holdsValue_iff (r : MsrRow) : holdsValue r = true ↔ (∃ m, r.rule = .masked m) ∨ ∃ v, r.rule = .legal v := by
  unfold holdsValue
  split <;> simp_all

end Sys2Proof.Machine
end

