-- ==== Sys2Proof/Laws/State.lean ====
section
/-! SUPPORT. The fields of the state after each named update, one lemma per field, true by rfl, so that no
later proof unfolds a record update. -/

namespace Sys2Proof.Machine

@[simp] theorem advance_eax (n : Word32) (s : State) : (advance n s).eax = s.eax := rfl
@[simp] theorem advance_ecx (n : Word32) (s : State) : (advance n s).ecx = s.ecx := rfl
@[simp] theorem advance_edx (n : Word32) (s : State) : (advance n s).edx = s.edx := rfl
@[simp] theorem advance_eip (n : Word32) (s : State) : (advance n s).eip = s.eip + n := rfl
@[simp] theorem advance_cpl (n : Word32) (s : State) : (advance n s).cpl = s.cpl := rfl
@[simp] theorem advance_msr (n : Word32) (s : State) : (advance n s).msr = s.msr := rfl
@[simp] theorem advance_l2 (n : Word32) (s : State) : (advance n s).l2 = s.l2 := rfl
@[simp] theorem advance_l2Pending (n : Word32) (s : State) : (advance n s).l2Pending = s.l2Pending := rfl
@[simp] theorem advance_program (n : Word32) (s : State) : (advance n s).program = s.program := rfl
@[simp] theorem advance_params (n : Word32) (s : State) : (advance n s).params = s.params := rfl
@[simp] theorem advance_turn (n : Word32) (s : State) : (advance n s).turn = s.turn := rfl
@[simp] theorem advance_draws (n : Word32) (s : State) : (advance n s).draws = s.draws := rfl
@[simp] theorem advance_getMsr (n : Word32) (s : State) (a' : Addr) : (advance n s).getMsr a' = s.getMsr a' := rfl
@[simp] theorem advance_l2Busy (n : Word32) (s : State) : l2Busy (advance n s) = l2Busy s := rfl
@[simp] theorem advance_requestOf (n : Word32) (s : State) : requestOf (advance n s) = requestOf s := rfl

@[simp] theorem setDatum_eax (s : State) (v : Word64) : (setDatum s v).eax = v.extractLsb' 0 32 := rfl
@[simp] theorem setDatum_ecx (s : State) (v : Word64) : (setDatum s v).ecx = s.ecx := rfl
@[simp] theorem setDatum_edx (s : State) (v : Word64) : (setDatum s v).edx = v.extractLsb' 32 32 := rfl
@[simp] theorem setDatum_eip (s : State) (v : Word64) : (setDatum s v).eip = s.eip := rfl
@[simp] theorem setDatum_cpl (s : State) (v : Word64) : (setDatum s v).cpl = s.cpl := rfl
@[simp] theorem setDatum_msr (s : State) (v : Word64) : (setDatum s v).msr = s.msr := rfl
@[simp] theorem setDatum_l2 (s : State) (v : Word64) : (setDatum s v).l2 = s.l2 := rfl
@[simp] theorem setDatum_l2Pending (s : State) (v : Word64) : (setDatum s v).l2Pending = s.l2Pending := rfl
@[simp] theorem setDatum_program (s : State) (v : Word64) : (setDatum s v).program = s.program := rfl
@[simp] theorem setDatum_params (s : State) (v : Word64) : (setDatum s v).params = s.params := rfl
@[simp] theorem setDatum_turn (s : State) (v : Word64) : (setDatum s v).turn = s.turn := rfl
@[simp] theorem setDatum_draws (s : State) (v : Word64) : (setDatum s v).draws = s.draws := rfl
@[simp] theorem setDatum_getMsr (s : State) (v : Word64) (a' : Addr) : (setDatum s v).getMsr a' = s.getMsr a' := rfl
@[simp] theorem setDatum_l2Busy (s : State) (v : Word64) : l2Busy (setDatum s v) = l2Busy s := rfl
@[simp] theorem setDatum_requestOf (s : State) (v : Word64) : requestOf (setDatum s v) = requestOf s := rfl

@[simp] theorem setMsr_eax (s : State) (a : Addr) (v : Word64) : (s.setMsr a v).eax = s.eax := rfl
@[simp] theorem setMsr_ecx (s : State) (a : Addr) (v : Word64) : (s.setMsr a v).ecx = s.ecx := rfl
@[simp] theorem setMsr_edx (s : State) (a : Addr) (v : Word64) : (s.setMsr a v).edx = s.edx := rfl
@[simp] theorem setMsr_eip (s : State) (a : Addr) (v : Word64) : (s.setMsr a v).eip = s.eip := rfl
@[simp] theorem setMsr_cpl (s : State) (a : Addr) (v : Word64) : (s.setMsr a v).cpl = s.cpl := rfl
@[simp] theorem setMsr_msr (s : State) (a : Addr) (v : Word64) : (s.setMsr a v).msr = msrSet s.msr a v := rfl
@[simp] theorem setMsr_l2 (s : State) (a : Addr) (v : Word64) : (s.setMsr a v).l2 = s.l2 := rfl
@[simp] theorem setMsr_l2Pending (s : State) (a : Addr) (v : Word64) : (s.setMsr a v).l2Pending = s.l2Pending := rfl
@[simp] theorem setMsr_program (s : State) (a : Addr) (v : Word64) : (s.setMsr a v).program = s.program := rfl
@[simp] theorem setMsr_params (s : State) (a : Addr) (v : Word64) : (s.setMsr a v).params = s.params := rfl
@[simp] theorem setMsr_turn (s : State) (a : Addr) (v : Word64) : (s.setMsr a v).turn = s.turn := rfl
@[simp] theorem setMsr_draws (s : State) (a : Addr) (v : Word64) : (s.setMsr a v).draws = s.draws := rfl

@[simp] theorem afterDraw_eax (s : State) : (afterDraw s).eax = s.eax := rfl
@[simp] theorem afterDraw_ecx (s : State) : (afterDraw s).ecx = s.ecx := rfl
@[simp] theorem afterDraw_edx (s : State) : (afterDraw s).edx = s.edx := rfl
@[simp] theorem afterDraw_eip (s : State) : (afterDraw s).eip = s.eip := rfl
@[simp] theorem afterDraw_cpl (s : State) : (afterDraw s).cpl = s.cpl := rfl
@[simp] theorem afterDraw_msr (s : State) : (afterDraw s).msr = s.msr := rfl
@[simp] theorem afterDraw_l2 (s : State) : (afterDraw s).l2 = s.l2 := rfl
@[simp] theorem afterDraw_l2Pending (s : State) : (afterDraw s).l2Pending = s.l2Pending := rfl
@[simp] theorem afterDraw_program (s : State) : (afterDraw s).program = s.program := rfl
@[simp] theorem afterDraw_params (s : State) : (afterDraw s).params = s.params := rfl
@[simp] theorem afterDraw_turn (s : State) : (afterDraw s).turn = s.turn := rfl
@[simp] theorem afterDraw_draws (s : State) : (afterDraw s).draws = s.draws + 1 := rfl
@[simp] theorem afterDraw_getMsr (s : State) (a' : Addr) : (afterDraw s).getMsr a' = s.getMsr a' := rfl
@[simp] theorem afterDraw_l2Busy (s : State) : l2Busy (afterDraw s) = l2Busy s := rfl
@[simp] theorem afterDraw_requestOf (s : State) : requestOf (afterDraw s) = requestOf s := rfl

@[simp] theorem handOver_eax (s : State) : (handOver s).eax = s.eax := rfl
@[simp] theorem handOver_ecx (s : State) : (handOver s).ecx = s.ecx := rfl
@[simp] theorem handOver_edx (s : State) : (handOver s).edx = s.edx := rfl
@[simp] theorem handOver_eip (s : State) : (handOver s).eip = s.eip := rfl
@[simp] theorem handOver_cpl (s : State) : (handOver s).cpl = s.cpl := rfl
@[simp] theorem handOver_msr (s : State) : (handOver s).msr = s.msr := rfl
@[simp] theorem handOver_l2 (s : State) : (handOver s).l2 = s.l2 := rfl
@[simp] theorem handOver_l2Pending (s : State) : (handOver s).l2Pending = s.l2Pending := rfl
@[simp] theorem handOver_program (s : State) : (handOver s).program = s.program := rfl
@[simp] theorem handOver_params (s : State) : (handOver s).params = s.params := rfl
@[simp] theorem handOver_turn (s : State) : (handOver s).turn = Config.agentTurn s.draws := rfl
@[simp] theorem handOver_draws (s : State) : (handOver s).draws = s.draws + 1 := rfl
@[simp] theorem handOver_getMsr (s : State) (a' : Addr) : (handOver s).getMsr a' = s.getMsr a' := rfl
@[simp] theorem handOver_l2Busy (s : State) : l2Busy (handOver s) = l2Busy s := rfl
@[simp] theorem handOver_requestOf (s : State) : requestOf (handOver s) = requestOf s := rfl


@[simp] theorem latchCommand_eax (s : State) : (latchCommand s).eax = s.eax := rfl
@[simp] theorem latchCommand_ecx (s : State) : (latchCommand s).ecx = s.ecx := rfl
@[simp] theorem latchCommand_edx (s : State) : (latchCommand s).edx = s.edx := rfl
@[simp] theorem latchCommand_eip (s : State) : (latchCommand s).eip = s.eip := rfl
@[simp] theorem latchCommand_cpl (s : State) : (latchCommand s).cpl = s.cpl := rfl
@[simp] theorem latchCommand_msr (s : State) : (latchCommand s).msr = busyMsr true s.msr := rfl
@[simp] theorem latchCommand_l2 (s : State) : (latchCommand s).l2 = s.l2 := rfl
@[simp] theorem latchCommand_l2Pending (s : State) : (latchCommand s).l2Pending = some (requestOf s) := rfl
@[simp] theorem latchCommand_program (s : State) : (latchCommand s).program = s.program := rfl
@[simp] theorem latchCommand_params (s : State) : (latchCommand s).params = s.params := rfl
@[simp] theorem latchCommand_turn (s : State) : (latchCommand s).turn = s.turn := rfl
@[simp] theorem latchCommand_draws (s : State) : (latchCommand s).draws = s.draws := rfl

@[simp] theorem commandDone_eax (out : L2State × L2Response) (s : State) : (commandDone out s).eax = s.eax := rfl
@[simp] theorem commandDone_ecx (out : L2State × L2Response) (s : State) : (commandDone out s).ecx = s.ecx := rfl
@[simp] theorem commandDone_edx (out : L2State × L2Response) (s : State) : (commandDone out s).edx = s.edx := rfl
@[simp] theorem commandDone_eip (out : L2State × L2Response) (s : State) : (commandDone out s).eip = s.eip := rfl
@[simp] theorem commandDone_cpl (out : L2State × L2Response) (s : State) : (commandDone out s).cpl = s.cpl := rfl
@[simp] theorem commandDone_msr (out : L2State × L2Response) (s : State) :
    (commandDone out s).msr = msrPutAll s.msr (responseWrites out.2 s.msr) := rfl
@[simp] theorem commandDone_l2 (out : L2State × L2Response) (s : State) : (commandDone out s).l2 = out.1 := rfl
@[simp] theorem commandDone_l2Pending (out : L2State × L2Response) (s : State) : (commandDone out s).l2Pending = none := rfl
@[simp] theorem commandDone_program (out : L2State × L2Response) (s : State) : (commandDone out s).program = s.program := rfl
@[simp] theorem commandDone_params (out : L2State × L2Response) (s : State) : (commandDone out s).params = s.params := rfl
@[simp] theorem commandDone_turn (out : L2State × L2Response) (s : State) : (commandDone out s).turn = s.turn := rfl
@[simp] theorem commandDone_draws (out : L2State × L2Response) (s : State) : (commandDone out s).draws = s.draws := rfl

@[simp] theorem hwStep_eax (s : State) : (hwStep s).eax = s.eax := rfl
@[simp] theorem hwStep_ecx (s : State) : (hwStep s).ecx = s.ecx := rfl
@[simp] theorem hwStep_edx (s : State) : (hwStep s).edx = s.edx := rfl
@[simp] theorem hwStep_eip (s : State) : (hwStep s).eip = s.eip := rfl
@[simp] theorem hwStep_cpl (s : State) : (hwStep s).cpl = s.cpl := rfl
@[simp] theorem hwStep_msr (s : State) : (hwStep s).msr = hwReplace s.draws s.msr (hwRows s.params) := rfl
@[simp] theorem hwStep_l2 (s : State) : (hwStep s).l2 = s.l2 := rfl
@[simp] theorem hwStep_l2Pending (s : State) : (hwStep s).l2Pending = s.l2Pending := rfl
@[simp] theorem hwStep_program (s : State) : (hwStep s).program = s.program := rfl
@[simp] theorem hwStep_params (s : State) : (hwStep s).params = s.params := rfl
@[simp] theorem hwStep_turn (s : State) : (hwStep s).turn = s.turn := rfl
@[simp] theorem hwStep_draws (s : State) : (hwStep s).draws = s.draws + 1 := rfl

@[simp] theorem placeBytes_eax (bs : List Byte) (s : State) : (placeBytes bs s).eax = s.eax := rfl
@[simp] theorem placeBytes_ecx (bs : List Byte) (s : State) : (placeBytes bs s).ecx = s.ecx := rfl
@[simp] theorem placeBytes_edx (bs : List Byte) (s : State) : (placeBytes bs s).edx = s.edx := rfl
@[simp] theorem placeBytes_eip (bs : List Byte) (s : State) : (placeBytes bs s).eip = s.eip := rfl
@[simp] theorem placeBytes_cpl (bs : List Byte) (s : State) : (placeBytes bs s).cpl = s.cpl := rfl
@[simp] theorem placeBytes_msr (bs : List Byte) (s : State) : (placeBytes bs s).msr = s.msr := rfl
@[simp] theorem placeBytes_l2 (bs : List Byte) (s : State) : (placeBytes bs s).l2 = s.l2 := rfl
@[simp] theorem placeBytes_l2Pending (bs : List Byte) (s : State) : (placeBytes bs s).l2Pending = s.l2Pending := rfl
@[simp] theorem placeBytes_program (bs : List Byte) (s : State) : (placeBytes bs s).program = textPlaceAll s.program s.eip bs := rfl
@[simp] theorem placeBytes_params (bs : List Byte) (s : State) : (placeBytes bs s).params = s.params := rfl
@[simp] theorem placeBytes_turn (bs : List Byte) (s : State) : (placeBytes bs s).turn = .core := rfl
@[simp] theorem placeBytes_draws (bs : List Byte) (s : State) : (placeBytes bs s).draws = s.draws := rfl
@[simp] theorem placeBytes_getMsr (bs : List Byte) (s : State) (a' : Addr) : (placeBytes bs s).getMsr a' = s.getMsr a' := rfl
@[simp] theorem placeBytes_l2Busy (bs : List Byte) (s : State) : l2Busy (placeBytes bs s) = l2Busy s := rfl
@[simp] theorem placeBytes_requestOf (bs : List Byte) (s : State) : requestOf (placeBytes bs s) = requestOf s := rfl

@[simp] theorem resetWith_params (p : Params) (b : Bool) : (State.resetWith p b).params = p := rfl
@[simp] theorem resetWith_cpl (p : Params) (b : Bool) : (State.resetWith p b).cpl = 0 := rfl
@[simp] theorem resetWith_l2Pending (p : Params) (b : Bool) : (State.resetWith p b).l2Pending = none := rfl
@[simp] theorem resetWith_program (p : Params) (b : Bool) : (State.resetWith p b).program = [] := rfl
@[simp] theorem resetWith_msr (p : Params) (b : Bool) : (State.resetWith p b).msr = resetMsr p.model b := rfl

end Sys2Proof.Machine
end

