-- ==== Sys2Proof/Laws/Ops.lean ====
section
/-! SUPPORT. For each shared operation, once, all it can do when it answers a next state (or a value): the
lemmas later proofs cite instead of unfolding the operation. -/

namespace Sys2Proof.Machine

/-! Answers. -/

@[simp] theorem afterNext_next_iff {f : State → State} {o : Answer} {t : State} :
    afterNext f o = .next t ↔ ∃ u, o = .next u ∧ f u = t := by
  cases o <;> simp [afterNext]

@[simp] theorem answerStop_ne_next (st : Stop) (t : State) : answerStop st ≠ .next t := by
  cases st <;> simp [answerStop]

@[simp] theorem raiseGP_eq (s : State) : raiseGP s = .fault .gp0 := rfl

/-! Registers. -/

@[simp] theorem getMsr_setMsr_same (s : State) (a : Addr) (v : Word64) : (s.setMsr a v).getMsr a = v :=
  msrGet_set_same s.msr a v

theorem getMsr_setMsr_other (s : State) {a b : Addr} (v : Word64) (h : b ≠ a) :
    (s.setMsr a v).getMsr b = s.getMsr b := msrGet_set_other s.msr v h

theorem getMsr_setMsr (s : State) (a b : Addr) (v : Word64) :
    (s.setMsr a v).getMsr b = if b = a then v else s.getMsr b := msrGet_set s.msr a b v

/-- A latch changes BBL_CR_BUSY alone. -/
theorem getMsr_latchCommand (s : State) (b : Addr) :
    (latchCommand s).getMsr b =
      if b = addrBblBusy then setField (s.getMsr addrBblBusy) 0 (bitOf true) else s.getMsr b :=
  msrGet_set s.msr addrBblBusy b _

/-- A completion changes the seven BBL registers of its response alone (41_l2_commands.md R233). -/
theorem getMsr_commandDone (out : L2State × L2Response) (s : State) (b : Addr) :
    (commandDone out s).getMsr b =
      if b = addrBblBusy then setField (s.getMsr addrBblBusy) 0 (bitOf false)
      else if b = addrBblDecc then setField (s.getMsr addrBblDecc) 0 out.2.ecc
      else if b = addrBblD3 then out.2.d3
      else if b = addrBblD2 then out.2.d2
      else if b = addrBblD1 then out.2.d1
      else if b = addrBblD0 then out.2.d0
      else if b = addrBblCtl then ctlWithResponse (s.getMsr addrBblCtl) out.2
      else s.getMsr b := by
  simp only [State.getMsr, commandDone_msr, responseWrites, msrPutAll, msrGet_set]

/-- A register no written row names is as before. -/
theorem msrGet_hwReplace_other (n : Nat) (f : List (Nat × Word64)) (rs : List MsrRow) {a : Addr}
    (h : ∀ r ∈ rs, r.addr ≠ a) : msrGet (hwReplace n f rs) a = msrGet f a := by
  induction rs generalizing f with
  | nil => rfl
  | cons r rs ih =>
    rw [hwReplace, ih _ fun q hq => h q (List.mem_cons_of_mem _ hq)]
    exact msrGet_set_other f _ (Ne.symm (h r (by simp)))

/-- A register a row names is what the hardware agent leaves there. -/
theorem msrGet_hwReplace_mem (n : Nat) (f : List (Nat × Word64)) {rs : List MsrRow} {r : MsrRow} (hr : r ∈ rs)
    (hn : (rs.map MsrRow.addr).Nodup) :
    msrGet (hwReplace n f rs) r.addr = Config.hwUpdate n r.addr (msrGet f r.addr) := by
  induction rs generalizing f with
  | nil => simp at hr
  | cons q rs ih =>
    rw [List.map_cons, List.nodup_cons] at hn
    rcases List.mem_cons.1 hr with rfl | hr
    · rw [hwReplace, msrGet_hwReplace_other]
      · simp
      · exact fun p hp e => hn.1 (e ▸ List.mem_map_of_mem hp)
    · rw [hwReplace, ih _ hr hn.2, msrGet_set_other]
      exact fun e => hn.1 (e ▸ List.mem_map_of_mem hr)

theorem mem_hwRows {p : Params} {r : MsrRow} : r ∈ hwRows p ↔ r ∈ msrTable ∧ r.hw = true ∧ avail p r.addr = .present := by
  simp [hwRows]

theorem hwRows_nodup (p : Params) : ((hwRows p).map MsrRow.addr).Nodup :=
  List.Nodup.sublist (List.Sublist.map _ List.filter_sublist) msrTable_addr_nodup

/-- The hardware agent keeps the MSR file canonical. -/
theorem msrFile_wf_hwReplace (n : Nat) {f : List (Nat × Word64)} {rs : List MsrRow} (h : MsrFile.wf f)
    (hr : ∀ r ∈ rs, r ∈ msrTable ∧ holdsValue r = true) : MsrFile.wf (hwReplace n f rs) := by
  induction rs generalizing f with
  | nil => exact h
  | cons r rs ih =>
    obtain ⟨hm, hv⟩ := hr r (by simp)
    exact ih (msrFile_wf_set _ h hm hv) fun q hq => hr q (List.mem_cons_of_mem _ hq)

/-! Checks. -/

theorem firstStop_none_iff (l : List (Option Stop)) : firstStop l = none ↔ ∀ c ∈ l, c = none := by
  induction l with
  | nil => simp [firstStop]
  | cons c l ih => cases c <;> simp [firstStop, ih]

theorem policyCheck_none_iff (p : WritePolicy) (d : Bool) (r : Refusal) :
    policyCheck p d r = none ↔ (d = true → p = .ignore) := by
  cases d <;> cases p <;> simp [policyCheck]

theorem differOn_false_iff (m x y : Word64) : differOn m x y = false ↔ (x ^^^ y) &&& m = 0 := by
  simp [differOn]

/-! The register level. -/

/-- What a read that answers a value is: the held value of a present register, or a draw. -/
theorem readMsr_value {a : Addr} {s t : State} {v : Word64} (h : readMsr a s = .value v t) :
    (avail s.params a = .present ∧ a ≠ addrBblTrig ∧ a ≠ addrBiosUpdtTrig ∧ (busyLocked a && l2Busy s) = false ∧
      v = s.getMsr a ∧ t = s) ∨
    ((avail s.params a = .silent ∨ (avail s.params a = .present ∧ a = addrBiosUpdtTrig) ∨
        (avail s.params a = .notImplemented ∧ notImplPolicy s.params .read a = .silent)) ∧
      v = drawValue s ∧ t = afterDraw s) := by
  unfold readMsr at h
  split at h
  · cases h
  · cases h
  · cases h
  · rename_i ha
    cases h
    exact .inr ⟨.inl ha, rfl, rfl⟩
  · rename_i ha
    split at h
    · cases h
    · cases h
    · rename_i hp
      cases h
      exact .inr ⟨.inr (.inr ⟨ha, hp⟩), rfl, rfl⟩
  · rename_i ha
    unfold readPresent at h
    split at h
    · cases h
    · rename_i ht
      split at h
      · rename_i hb
        cases h
        exact .inr ⟨.inr (.inl ⟨ha, hb⟩), rfl, rfl⟩
      · rename_i hb
        split at h
        · cases h
        · rename_i hl
          cases h
          exact .inl ⟨ha, ht, hb, by simpa using hl, rfl, rfl⟩

/-- What a write to a held register that answers a next state is. -/
theorem writeHeld_next {a : Addr} {w : WriteRule} {v : Word64} {s t : State} (h : writeHeld a w v s = .next t) :
    (∀ c ∈ writeChecks a w v s, c = none) ∧ t = s.setMsr a (writtenValue a (writeMasks w) (s.getMsr a) v) := by
  unfold writeHeld at h
  split at h
  · exact absurd h (answerStop_ne_next _ _)
  · rename_i hc
    exact ⟨(firstStop_none_iff _).1 hc, by cases h; rfl⟩

/-- A write past its checks is not to a register locked by a command in progress (40_msr_access.md R209, log 26). -/
theorem writeChecks_not_locked {a : Addr} {w : WriteRule} {v : Word64} {s : State}
    (h : ∀ c ∈ writeChecks a w v s, c = none) : (writeLocked a && l2Busy s) = false := by
  have := h (busyCheck a s) (by simp [writeChecks])
  unfold busyCheck at this
  split at this <;> simp_all

/-- What a trigger that answers a next state is (41_l2_commands.md R232). -/
theorem triggerL2_next {v : Word64} {s t : State} (h : triggerL2 v s = .next t) :
    v = 0 ∧ l2Busy s = false ∧ (decodeL2 (requestOf s).cmd).isSome = true ∧ t = latchCommand s := by
  unfold triggerL2 at h
  split at h
  · cases h
  · rename_i hv
    split at h
    · cases h
    · rename_i hb
      split at h
      · cases h
      · rename_i hd
        cases h
        exact ⟨by simpa using hv, by simpa using hb, by simpa [Option.isSome_iff_ne_none] using hd, rfl⟩

/-- The three things a write that answers a next state can be: nothing, one held register changed past its
checks, or a trigger. -/
theorem writeMsr_next {a : Addr} {v : Word64} {s t : State} (h : writeMsr a v s = .next t) :
    (t = s ∧ (avail s.params a = .silent ∨
        (avail s.params a = .notImplemented ∧ notImplPolicy s.params .write a = .silent))) ∨
    (avail s.params a = .present ∧ ∃ r, msrRow? a = some r ∧ holdsValue r = true ∧
        (∀ c ∈ writeChecks a r.rule v s, c = none) ∧
        t = s.setMsr a (writtenValue a (writeMasks r.rule) (s.getMsr a) v)) ∨
    (avail s.params a = .present ∧ a = addrBblTrig ∧ v = 0 ∧ l2Busy s = false ∧
        (decodeL2 (requestOf s).cmd).isSome = true ∧ t = latchCommand s) := by
  unfold writeMsr at h
  split at h
  · cases h
  · cases h
  · cases h
  · rename_i ha
    cases h
    exact .inl ⟨rfl, .inl ha⟩
  · rename_i ha
    split at h
    · cases h
    · cases h
    · rename_i hp
      cases h
      exact .inl ⟨rfl, .inr ⟨ha, hp⟩⟩
  · rename_i ha
    unfold writePresent at h
    split at h
    · cases h
    · rename_i r hr
      split at h
      · rename_i m hm
        obtain ⟨hc, ht⟩ := writeHeld_next h
        exact .inr (.inl ⟨ha, r, hr, by simp [holdsValue, hm], by rw [hm]; exact hc, by rw [hm]; exact ht⟩)
      · rename_i w hm
        obtain ⟨hc, ht⟩ := writeHeld_next h
        exact .inr (.inl ⟨ha, r, hr, by simp [holdsValue, hm], by rw [hm]; exact hc, by rw [hm]; exact ht⟩)
      · rename_i hm
        obtain ⟨hmem, haddr⟩ := msrRow_spec hr
        exact .inr (.inr ⟨ha, by rw [← haddr]; exact trigger_row_addr r hmem hm, triggerL2_next h⟩)
      · cases h
      · cases h

/-- What a completed command is (41_l2_commands.md R233). -/
theorem completeCommand_next {c : BitVec 5} {s t : State} (h : completeCommand c s = .next t) :
    ∃ req, s.l2Pending = some req ∧ l2Busy s = true ∧ req.cmd = c ∧
      t = afterDraw (commandDone (Config.l2Exec req s.l2 s.draws) s) := by
  unfold completeCommand at h
  split at h
  · rename_i req hp
    split at h
    · rename_i hb
      cases h
      exact ⟨req, hp, hb.1, hb.2, rfl⟩
    · cases h
  · cases h

/-! The instructions. -/

/-- What an RDMSR that completes is. -/
theorem execRdmsr_next {s t : State} (h : execRdmsr s = .next t) :
    s.cpl = 0 ∧ ∃ v u, readMsr s.ecx s = .value v u ∧ t = advance 2 (setDatum u v) := by
  unfold execRdmsr at h
  split at h
  · cases h
  · rename_i hc
    split at h
    · rename_i v u hr
      cases h
      exact ⟨by simpa using hc, v, u, hr, rfl⟩
    · exact absurd h (answerStop_ne_next _ _)

/-- What a WRMSR that completes is. -/
theorem execWrmsr_next {s t : State} (h : execWrmsr s = .next t) :
    s.cpl = 0 ∧ ∃ u, writeMsr s.ecx (datum s) s = .next u ∧ t = advance 2 u := by
  unfold execWrmsr at h
  split at h
  · cases h
  · rename_i hc
    obtain ⟨u, hu, ht⟩ := afterNext_next_iff.1 h
    exact ⟨by simpa using hc, u, hu, ht.symm⟩

/-- The code an L2 command's completion is for; `none` for an instruction of the core. -/
def commandCode : Instr → Option (BitVec 5)
  | .rlu => some 0b01100
  | .trr => some 0b01110
  | .ti => some 0b01111
  | .cr => some 0b00010
  | .cw => some 0b00011
  | .twr m => some ((0b010 : BitVec 3) ++ mesiCode m)
  | .tww m => some ((0b111 : BitVec 3) ++ mesiCode m)
  | .tw m => some ((0b100 : BitVec 3) ++ mesiCode m)
  | _ => none

/-- An L2 command's meaning is the completion of its code. -/
theorem exec_command {i : Instr} {c : BitVec 5} (h : commandCode i = some c) (s : State) :
    exec i s = completeCommand c s := by
  cases i <;> simp_all [commandCode, exec, execRlu, execTrr, execTi, execCr, execCw, execTwr, execTww, execTw]

/-- The instructions by kind: an MSR access, a MOV, or an L2 command. -/
theorem instr_kinds (i : Instr) : i = .rdmsr ∨ i = .wrmsr ∨ (∃ n, i = .movEax n ∨ i = .movEcx n ∨ i = .movEdx n) ∨
    ∃ c, commandCode i = some c := by
  cases i <;> simp [commandCode]

/-! The step. -/

/-- What a step that answers a next state is: the core's instruction, the hardware agent's change, or the
latched command. -/
theorem step_next {s t : State} (h : step s = .next t) :
    (mover s = .core ∧ ∃ i rest u, fetch s = .ok i rest ∧ exec i s = .next u ∧ t = handOver u) ∨
    (mover s = .hardware ∧ t = handOver (hwStep s)) ∨
    (mover s = .l2Engine ∧ ∃ req i u, s.l2Pending = some req ∧ decodeL2 req.cmd = some i ∧ exec i s = .next u ∧
      t = handOver u) := by
  unfold step at h
  split at h
  · rename_i hm
    unfold coreStep at h
    split at h
    · rename_i i rest hf
      obtain ⟨u, hu, ht⟩ := afterNext_next_iff.1 h
      exact .inl ⟨hm, i, rest, u, hf, hu, ht.symm⟩
    · cases h
  · rename_i hm
    cases h
    exact .inr (.inl ⟨hm, rfl⟩)
  · rename_i hm
    unfold engineStep at h
    split at h
    · rename_i req hp
      cases hd : decodeL2 req.cmd with
      | none => simp [decode, hd] at h
      | some i =>
        simp only [decode, hd] at h
        obtain ⟨u, hu, ht⟩ := afterNext_next_iff.1 h
        exact .inr (.inr ⟨hm, req, i, u, hp, hd, hu, ht.symm⟩)
    · cases h

end Sys2Proof.Machine
end

