-- ==== Sys2Proof/Laws/PerInstr.lean ====
section
/-! SUPPORT. One family of facts, one lemma per constructor of `Instr`: the shape of an instruction's code. -/

namespace Sys2Proof.Laws.CodeShape

/-- The code of an instruction of the core is two or five bytes (30_encoding.md R161, R162); that of an L2
command is an assigned five-bit code, the command's own (30_encoding.md R170, R171). -/
def Statement (i : Instr) : Prop :=
  (∃ bs, encode i = .bytes bs ∧ (bs.length = 2 ∨ bs.length = 5)) ∨ ∃ c, encode i = .l2cmd c ∧ decodeL2 c = some i

theorem rdmsr : Statement .rdmsr := .inl ⟨_, rfl, .inl rfl⟩
theorem wrmsr : Statement .wrmsr := .inl ⟨_, rfl, .inl rfl⟩
theorem movEax (n : Word32) : Statement (.movEax n) := .inl ⟨_, rfl, .inr rfl⟩
theorem movEcx (n : Word32) : Statement (.movEcx n) := .inl ⟨_, rfl, .inr rfl⟩
theorem movEdx (n : Word32) : Statement (.movEdx n) := .inl ⟨_, rfl, .inr rfl⟩
theorem rlu : Statement .rlu := .inr ⟨_, rfl, by decide⟩
theorem trr : Statement .trr := .inr ⟨_, rfl, by decide⟩
theorem ti : Statement .ti := .inr ⟨_, rfl, by decide⟩
theorem cr : Statement .cr := .inr ⟨_, rfl, by decide⟩
theorem cw : Statement .cw := .inr ⟨_, rfl, by decide⟩
theorem twr (m : Mesi) : Statement (.twr m) := .inr ⟨_, rfl, by cases m <;> decide⟩
theorem tww (m : Mesi) : Statement (.tww m) := .inr ⟨_, rfl, by cases m <;> decide⟩
theorem tw (m : Mesi) : Statement (.tw m) := .inr ⟨_, rfl, by cases m <;> decide⟩

end Sys2Proof.Laws.CodeShape
end

