-- ==== Sys2Proof/Tests/Slice0.lean ====
section
/-! SUPPORT. Tests by hand from spec/95_test_vectors.md and the encoding tables, the refusals of ill-formed
parameters, and for every statement with hypotheses a state that meets them together (a witness). -/

namespace Sys2Proof.Tests

open Sys2Proof.Machine

/-! Helpers: the vectors' conventions (Model P6, default parameters, EIP 1000H). -/

def p6 : Params := { resetParams with model := .p6 }

def onPentium : Params := { resetParams with model := .pentium }

/-- A state about to access a register: CPL, ECX, EDX, EAX and the MSR file. -/
def reg (p : Params) (cpl : BitVec 2) (ecx edx eax : Word32) (m : List (Nat × Word64)) : State :=
  { State.resetWith p true with cpl := cpl, ecx := ecx, edx := edx, eax := eax, eip := 0x1000, msr := m }

def acc (ecx edx eax : Word32) (m : List (Nat × Word64)) : State := reg p6 0 ecx edx eax m

/-- A state whose engine is busy with a command of the given code. -/
def latched (c : Word64) : State :=
  let s := acc 0x11B 0 0 [(0x119, c), (0x11B, 1)]
  { s with l2Pending := some (requestOf s), turn := .l2Engine }

/-- A state with program text at EIP. -/
def text (bs : List Byte) (s : State) : State := { s with program := textPlaceAll [] s.eip bs }

def eaxEdxEip (o : Answer) : Option (Word32 × Word32 × Word32) := (nextState? o).map fun t => (t.eax, t.edx, t.eip)

def msrAfter (o : Answer) (a : Addr) : Option Word64 := (nextState? o).map fun t => t.getMsr a

def isNext (o : Answer) : Bool := (nextState? o).isSome

theorem next_of_isNext {o : Answer} (h : isNext o = true) : ∃ t, o = .next t := by
  cases o with
  | next t => exact ⟨t, rfl⟩
  | fault f => cases h
  | refused r => cases h

theorem fault_of_faultOf {o : Answer} {f : Fault} (h : faultOf? o = some f) : o = .fault f := by
  cases o <;> simp_all [faultOf?]

/-! WellFormed: an ill-formed term for each check, which the check refuses. -/

theorem test_wf_reset : paramsWellFormed resetParams = true := by decide
theorem test_wf_shaded_unlisted : shadedListed { p6 with shaded := [0x2] } = false := by decide
theorem test_wf_shaded_pentium_row : shadedNotPentium { p6 with shaded := [0x1B, 0x11] } = false := by decide
theorem test_wf_phys_addr_bits : physAddrBitsOk { p6 with physAddrBits := 37 } = false := by decide
theorem test_wf_not_impl_access : notImplAccessOk { p6 with notImplAccess := [(.read, 0x1B, .fault)] } = false := by
  decide

/-! Decoding: a word of every constructor, written out from 30_encoding.md R161, R162, R170. -/

theorem test_decode_rdmsr : decode (.bytes [0x0F, 0x32]) = .ok .rdmsr [] := by decide
theorem test_decode_wrmsr : decode (.bytes [0x0F, 0x30]) = .ok .wrmsr [] := by decide
theorem test_decode_mov_eax : decode (.bytes [0xB8, 0x78, 0x56, 0x34, 0x12]) = .ok (.movEax 0x12345678) [] := by decide
theorem test_decode_mov_ecx : decode (.bytes [0xB9, 0x1B, 0, 0, 0]) = .ok (.movEcx 0x1B) [] := by decide
theorem test_decode_mov_edx : decode (.bytes [0xBA, 0xFF, 0xFF, 0xFF, 0xFF]) = .ok (.movEdx 0xFFFFFFFF) [] := by decide
theorem test_decode_rlu : decode (.l2cmd 0b01100) = .ok .rlu [] := by decide
theorem test_decode_trr : decode (.l2cmd 0b01110) = .ok .trr [] := by decide
theorem test_decode_ti : decode (.l2cmd 0b01111) = .ok .ti [] := by decide
theorem test_decode_cr : decode (.l2cmd 0b00010) = .ok .cr [] := by decide
theorem test_decode_cw : decode (.l2cmd 0b00011) = .ok .cw [] := by decide
theorem test_decode_twr : decode (.l2cmd 0b01001) = .ok (.twr .shared) [] := by decide
theorem test_decode_tww : decode (.l2cmd 0b11110) = .ok (.tww .exclusive) [] := by decide
theorem test_decode_tw : decode (.l2cmd 0b10011) = .ok (.tw .modified) [] := by decide

/-- 95_test_vectors.md 2.6: what is no instruction is refused, prefixes too. -/
theorem test_decode_refusals :
    decode (.bytes [0x0F, 0x31]) = .refused (.secondByte 0x31) ∧
    decode (.bytes [0x90]) = .refused (.unknownByte 0x90) ∧
    decode (.bytes [0xF3, 0x0F, 0x32]) = .refused (.unknownByte 0xF3) ∧
    decode (.bytes [0xBB, 0, 0, 0, 0]) = .refused (.registerOutsideSpec 3) ∧
    decode (.bytes [0xB8, 0, 0]) = .refused .textEnds ∧
    decode (.l2cmd 0b01101) = .refused (.unassignedCommand 0b01101) := by decide

/-! One step each, from the vectors. -/

/-- RD1. -/
theorem test_rdmsr_apicbase :
    eaxEdxEip (exec .rdmsr (acc 0x1B 0xDEADBEEF 0x12345678 [(0x1B, 0xFEE00900)])) = some (0xFEE00900, 0, 0x1002) := by
  decide

/-- RD4: the privilege check comes before the unlisted address. -/
theorem test_rdmsr_privilege_first : faultOf? (exec .rdmsr (reg p6 3 0x2 0 0 [])) = some .gp0 := by decide

/-- WR3: a held unlisted bit written as held is kept. -/
theorem test_wrmsr_held_unlisted_bit :
    msrAfter (exec .wrmsr (acc 0x2FF 0 0xC0E [(0x2FF, 0x8)])) 0x2FF = some 0xC0E := by decide

/-- WS7: BBL_CR_ADDR bits 2:0 become zero whatever they held. -/
theorem test_wrmsr_bbl_addr : msrAfter (exec .wrmsr (acc 0x116 0 0x40 [(0x116, 0x7)])) 0x116 = some 0x40 := by
  decide

/-- MV6. -/
theorem test_mov_eax_wraps :
    (nextState? (exec (.movEax 0) { acc 0 0 7 [] with eip := 0xFFFFFFFD })).map (fun t => (t.eip, t.eax)) = some (2, 0) := by
  decide

/-- MV1. -/
theorem test_mov_ecx :
    (nextState? (exec (.movEcx 0x1B) (acc 0xFFFFFFFF 0 0 []))).map (fun t => (t.ecx, t.eip)) = some (0x1B, 0x1005) := by
  decide

/-- MV3. -/
theorem test_mov_edx : eaxEdxEip (exec (.movEdx 0xFFFFFFFF) (acc 0 0 9 [])) = some (9, 0xFFFFFFFF, 0x1005) := by
  decide

/-- What an L2 command's completion leaves that no answer of `L2Exec` decides, the MSR file apart: the latch
emptied, one draw taken, EIP as it was (LC13). -/
def finished (o : Answer) : Option (Bool × Nat × Word32) :=
  (nextState? o).map fun t => (t.l2Pending.isSome, t.draws, t.eip)

theorem test_rlu_completes : finished (exec .rlu (latched 0x0C)) = some (false, 1, 0x1000) := by decide
theorem test_trr_completes : finished (exec .trr (latched 0x20E)) = some (false, 1, 0x1000) := by decide
theorem test_ti_completes : finished (exec .ti (latched 0x0F)) = some (false, 1, 0x1000) := by decide
theorem test_cr_completes : finished (exec .cr (latched 0x02)) = some (false, 1, 0x1000) := by decide
theorem test_cw_completes : finished (exec .cw (latched 0x03)) = some (false, 1, 0x1000) := by decide
theorem test_twr_completes : finished (exec (.twr .shared) (latched 0x229)) = some (false, 1, 0x1000) := by
  decide
theorem test_tww_completes : finished (exec (.tww .modified) (latched 0x4007F)) = some (false, 1, 0x1000) := by
  decide
theorem test_tw_completes : finished (exec (.tw .invalid) (latched 0x310)) = some (false, 1, 0x1000) := by
  decide

/-! Witnesses: each shows concrete data that meets all the hypotheses of the statement it is named after, clause by
clause where the statement has several. -/

theorem witness_AcceptedCodeIsTheEncoding :
    decodeBytes [0x0F, 0x32, 0x90] = .ok .rdmsr [0x90] ∧ decodeL2 0b01100 = some .rlu := by decide

theorem witness_DecoderAdmitsOnlyThreeForms :
    (0xBA : Byte) ∈ ([0xB8, 0xB9, 0xBA] : List Byte) ∧ ([1, 2, 3] : List Byte).length < 4 ∧
    (0xBB : Byte) ∉ ([0x0F, 0xB8, 0xB9, 0xBA] : List Byte) := by decide

theorem witness_StepRunsTheDecodedInstruction :
    mover (text [0x0F, 0x32] (acc 0x1B 0 0 [])) = .core ∧
    decodeBytes (bytesAt (text [0x0F, 0x32] (acc 0x1B 0 0 [])).program (text [0x0F, 0x32] (acc 0x1B 0 0 [])).eip 5) =
      .ok .rdmsr [] := by decide

theorem witness_StepRunsTheLatchedCommand :
    (latched 0x0F).turn = .l2Engine ∧ commandInProgress (latched 0x0F) ∧
    (latched 0x0F).l2Pending = some (requestOf (latched 0x0F)) ∧ decodeL2 (requestOf (latched 0x0F)).cmd = some .ti := by
  unfold commandInProgress; decide

theorem witness_UndecodableBytesAreRefused :
    mover (text [0x90] (acc 0 0 0 [])) = .core ∧
    decodeBytes (bytesAt (text [0x90] (acc 0 0 0 [])).program (text [0x90] (acc 0 0 0 [])).eip 5) =
      .refused (.unknownByte 0x90) := by decide

theorem witness_PlacedWordRunsNext : decodeTableWord 8 0x1C = some (.tww .invalid) := by decide

theorem witness_MsrAccessNeedsPrivilegeZero : (reg p6 1 0x2FF 0 0 []).cpl ≠ 0 := by decide

theorem witness_access_without_a_register :
    (acc 0x8000001B 0 0 []).cpl = 0 ∧
    avail p6 0x8000001B = .unlisted ∧ avail onPentium 0x1B = .notEstablished ∧
    avail { p6 with shaded := [0x413] } 0x413 = .notEstablished ∧ avail p6 0x13 = .faults ∧ avail p6 0x1 = .silent ∧
    avail p6 0x403 = .notImplemented ∧ avail p6 0x413 = .notImplemented ∧
    notImplPolicy { p6 with notImplAccess := [(.read, 0x40E, .silent)] } .read 0x40E = .silent := by decide

theorem witness_PentiumAddressesOnTheP6Family :
    (acc 0x13 0 0 []).cpl = 0 ∧ (acc 0x13 0 0 []).params.model ≠ .pentium ∧ (acc 0x13 0 0 []).ecx = 0x13 ∧
    (acc 0x1 0 0 []).ecx = 0x1 ∧ (acc 0x10 0 0 []).ecx = 0x10 := by decide

theorem witness_RdmsrReturnsTheHeldValue :
    accesses (acc 0x88 0 0 [(0x88, 0x0123456789ABCDEF)]) 0x88 ∧ (0x88 : Addr) ≠ 0x11A ∧ (0x88 : Addr) ≠ 0x79 ∧
    ¬commandInProgress (acc 0x88 0 0 [(0x88, 0x0123456789ABCDEF)]) := by
  unfold accesses commandInProgress; decide

theorem witness_ReadValueOfAPresentRegister :
    accesses (acc 0x11A 0 0 []) 0x11A ∧ accesses (acc 0x79 0 0 []) 0x79 ∧
    (accesses (acc 0x11E 0 0 [(0x11B, 1)]) 0x11E ∧ commandInProgress (acc 0x11E 0 0 [(0x11B, 1)])) ∧
    accesses (acc 0x11B 0 0 [(0x11B, 1)]) 0x11B ∧
    (accesses (acc 0x119 0 0 []) 0x119 ∧ ¬commandInProgress (acc 0x119 0 0 [])) := by
  unfold accesses commandInProgress; decide

theorem witness_RdmsrFrame : ∃ t, exec .rdmsr (acc 0x1B 0 0 [(0x1B, 0xFEE00900)]) = .next t :=
  next_of_isNext (by decide)

/-- The witnesses of WrmsrStoresTheWritableBits: the first and the last row of the table, and the row with the
size check. -/
theorem witness_WrmsrStoresTheWritableBits :
    (accesses (acc 0x1B 0 0xFEC00900 [(0x1B, 0xFEE00900)]) 0x1B ∧
      passes .preserve 0xFFFFFFFF000006FF 0xFEE00900 (writeDatum (acc 0x1B 0 0xFEC00900 [])) ∧
      passes .preserve 0x100 0xFEE00900 (writeDatum (acc 0x1B 0 0xFEC00900 [])) ∧
      ((acc 0x1B 0 0xFEC00900 [(0x1B, 0xFEE00900)]).getMsr 0x1B).getLsbD 11 = true) ∧
    (accesses (acc 0x2FF 0 0xC06 []) 0x2FF ∧
      passes .preserve 0xFFFFFFFFFFFFF3F8 0 (writeDatum (acc 0x2FF 0 0xC06 [])) ∧
      passes .preserve 0 0 (writeDatum (acc 0x2FF 0 0xC06 []))) ∧
    (accesses (acc 0x11E 0 0x30452B [(0x11E, 0x400)]) 0x11E ∧
      passes .preserve 0xFFFFFFFFFD080000 0x400 (writeDatum (acc 0x11E 0 0x30452B [])) ∧
      passes .preserve 0x2801E00 0x400 (writeDatum (acc 0x11E 0 0x30452B [])) ∧
      ¬commandInProgress (acc 0x11E 0 0x30452B [(0x11E, 0x400)]) ∧
      (writeDatum (acc 0x11E 0 0x30452B [])).extractLsb' 13 5 = 2) := by
  unfold accesses commandInProgress passes; decide

theorem witness_WrmsrReservedBitsPolicy :
    accesses (acc 0x2FF 1 0xC06 []) 0x2FF ∧
    ((acc 0x2FF 1 0xC06 []).getMsr 0x2FF ^^^ writeDatum (acc 0x2FF 1 0xC06 [])) &&& 0xFFFFFFFFFFFFF3F8 ≠ 0 := by
  unfold accesses; decide

theorem witness_WrmsrReadOnlyBitsPolicy :
    accesses (acc 0x1B 0 0xFEE00800 [(0x1B, 0xFEE00900)]) 0x1B ∧
    passes .preserve 0xFFFFFFFF000006FF 0xFEE00900 (writeDatum (acc 0x1B 0 0xFEE00800 [])) ∧
    ((0xFEE00900 : Word64) ^^^ writeDatum (acc 0x1B 0 0xFEE00800 [])) &&& 0x100 ≠ 0 := by
  unfold accesses passes; decide

/-- LegalValue given as one fact: the datum 6 is legal at 200H (WR15), and bits 63:57 zero are at 401H. -/
def withLegal : Params := { p6 with legalValue := [⟨0x200, 0xFFFFFFFFFFFFFFFF, 6⟩, ⟨0x401, 0xFE00000000000000, 0⟩] }

theorem witness_WrmsrOfANameOnlyRegister :
    (nameOnlyAddrs.contains 0x200 && nameOnlyAddrs.contains 0x0) = true ∧ accesses (reg withLegal 0 0x200 0 6 []) 0x200 ∧
    legalValue withLegal 0x200 (writeDatum (reg withLegal 0 0x200 0 6 [])) = true ∧
    legalValue withLegal 0x200 (writeDatum (reg withLegal 0 0x200 0 7 [])) = false ∧
    accesses (reg onPentium 0 0x0 0 0 []) 0x0 := by unfold accesses; decide

theorem witness_WrmsrOfAnMcStatus :
    mcStatusAddrs.contains 0x401 = true ∧ accesses (reg withLegal 0 0x401 0 5 []) 0x401 ∧
    passes .preserve 0x01FFFFFF00000000 0 (writeDatum (reg withLegal 0 0x401 0 5 [])) ∧
    legalValue withLegal 0x401 (writeDatum (reg withLegal 0 0x401 0 5 [])) = true ∧
    (accesses (reg withLegal 0 0x411 0x01000000 5 []) 0x411 ∧ mcStatusAddrs.contains 0x411 = true ∧
      ((0 : Word64) ^^^ writeDatum (reg withLegal 0 0x411 0x01000000 5 [])) &&& 0x01FFFFFF00000000 ≠ 0) := by
  unfold accesses passes; decide

theorem witness_WrmsrOfApicBaseIsSticky :
    accesses (acc 0x1B 0 0xFEE00900 [(0x1B, 0xFEE00100)]) 0x1B ∧
    passes .preserve 0xFFFFFFFF000006FF 0xFEE00100 (writeDatum (acc 0x1B 0 0xFEE00900 [])) ∧
    passes .preserve 0x100 0xFEE00100 (writeDatum (acc 0x1B 0 0xFEE00900 [])) ∧
    (0xFEE00100 : Word64).getLsbD 11 = false ∧ (writeDatum (acc 0x1B 0 0xFEE00900 [])).getLsbD 11 = true := by
  unfold accesses passes; decide

theorem witness_WrmsrOfBblAddr :
    (accesses (acc 0x116 0 0x123458 []) 0x116 ∧ ¬commandInProgress (acc 0x116 0 0x123458 []) ∧
      passes .preserve 0xFFFFFFFF00000000 0 (writeDatum (acc 0x116 0 0x123458 [])) ∧
      (writeDatum (acc 0x116 0 0x123458 [])).extractLsb' 0 3 = 0) ∧
    (accesses (acc 0x116 0 0x12345C []) 0x116 ∧
      (writeDatum (acc 0x116 0 0x12345C [])).extractLsb' 0 3 ≠ 0) ∧
    (accesses (acc 0x116 1 0 []) 0x116 ∧ ((0 : Word64) ^^^ writeDatum (acc 0x116 1 0 [])) &&& 0xFFFFFFFF00000000 ≠ 0) := by
  unfold accesses commandInProgress passes; decide

theorem witness_WrmsrOfBblCtl :
    (accesses (acc 0x119 0 0x4007F []) 0x119 ∧ ¬commandInProgress (acc 0x119 0 0x4007F []) ∧
      passes .preserve 0xFFFFFFFFFFFAC080 0 (writeDatum (acc 0x119 0 0x4007F [])) ∧
      passes .preserve 0x13C00 0 (writeDatum (acc 0x119 0 0x4007F []))) ∧
    (accesses (acc 0x119 0 0x10000 []) 0x119 ∧
      passes .preserve 0xFFFFFFFFFFFAC080 0 (writeDatum (acc 0x119 0 0x10000 [])) ∧
      ((0 : Word64) ^^^ writeDatum (acc 0x119 0 0x10000 [])) &&& 0x13C00 ≠ 0) := by
  unfold accesses commandInProgress passes; decide

/-- WS9. -/
theorem witness_WrmsrOfBblCtl3NeedsAListedSize :
    accesses (acc 0x11E 0 0x30652B [(0x11E, 0x400)]) 0x11E ∧
    passes .preserve 0xFFFFFFFFFD080000 0x400 (writeDatum (acc 0x11E 0 0x30652B [])) ∧
    passes .preserve 0x2801E00 0x400 (writeDatum (acc 0x11E 0 0x30652B [])) ∧
    (writeDatum (acc 0x11E 0 0x30652B [])).extractLsb' 13 5 ∉ ([1, 2, 4, 8, 16] : List (BitVec 5)) := by
  unfold accesses passes; decide

theorem witness_WrmsrCannotWriteBusy :
    accesses (acc 0x11B 0 2 [(0x11B, 2)]) 0x11B ∧ (acc 0x11B 0 2 [(0x11B, 2)]).params.reservedWrite = .preserve ∧
    (acc 0x11B 0 2 [(0x11B, 2)]).params.readOnlyWrite = .preserve ∧ MsrFile.wf (acc 0x11B 0 2 [(0x11B, 2)]).msr ∧
    (∃ t, exec .wrmsr (acc 0x11B 0 2 [(0x11B, 2)]) = .next t) :=
  ⟨by unfold accesses; decide, rfl, rfl, by decide, next_of_isNext (by decide)⟩

/-- LC12, LC14, LC15 and WS12. -/
theorem witness_WrmsrTriggerLatchesTheCommand :
    (accesses (acc 0x11A 0 0 [(0x119, 0x0F)]) 0x11A ∧ writeDatum (acc 0x11A 0 0 [(0x119, 0x0F)]) = 0 ∧
      ¬commandInProgress (acc 0x11A 0 0 [(0x119, 0x0F)]) ∧ decodeL2 0b01111 ≠ none) ∧
    ((acc 0x11A 0 0 [(0x119, 0x0D)]).getMsr 0x119).extractLsb' 0 5 = 0b01101 ∧ decodeL2 0b01101 = none ∧
    commandInProgress (acc 0x11A 0 0 [(0x11B, 1)]) ∧ writeDatum (acc 0x11A 0 1 []) ≠ 0 := by
  unfold accesses commandInProgress; decide

theorem witness_TriggerIsWrittenWithZeroAndNeverRead :
    accesses (acc 0x11A 0x80000000 0 []) 0x11A ∧ writeDatum (acc 0x11A 0x80000000 0 []) ≠ 0 := by
  unfold accesses; decide

/-- The witnesses of LockedRegistersWaitForTheEngine: the first and the last address of the ten, BBL_CR_BUSY, and
the three registers with a check of their own. -/
theorem witness_LockedRegistersWaitForTheEngine :
    (accesses (acc 0x88 0 0 [(0x11B, 1)]) 0x88 ∧ commandInProgress (acc 0x88 0 0 [(0x11B, 1)]) ∧
      lockedAddrs.contains 0x88 = true) ∧
    (accesses (acc 0x11B 0 1 [(0x11B, 1)]) 0x11B ∧ writeLockedAddrs.contains 0x11B = true ∧
      passes .preserve 0xFFFFFFFFFFFFFFFE 1 (writeDatum (acc 0x11B 0 1 [])) ∧
      passes .preserve 1 1 (writeDatum (acc 0x11B 0 1 []))) ∧
    (accesses (acc 0x11E 0 0x2000 [(0x11B, 1)]) 0x11E ∧
      passes .preserve 0xFFFFFFFFFD080000 0 (writeDatum (acc 0x11E 0 0x2000 [])) ∧
      ownCheckHolds 0x11E (writeDatum (acc 0x11E 0 0x2000 []))) ∧
    (accesses (acc 0x116 0 8 [(0x11B, 1)]) 0x116 ∧ ownCheckHolds 0x116 (writeDatum (acc 0x116 0 8 []))) ∧
    (accesses (acc 0x11A 0 0 [(0x11B, 1)]) 0x11A ∧ ownCheckHolds 0x11A (writeDatum (acc 0x11A 0 0 []))) ∧
    lockedRows.length = 10 := by unfold accesses commandInProgress passes ownCheckHolds; decide

theorem witness_BiosUpdateTriggerHoldsNoValue : accesses (acc 0x79 0 0 []) 0x79 := by unfold accesses; decide

theorem witness_WrmsrFrame :
    (∃ t, exec .wrmsr (acc 0x11A 0 0 [(0x119, 0x0F)]) = .next t) ∧ ∃ t, exec .wrmsr (acc 0x2FF 0 0xC06 []) = .next t :=
  ⟨next_of_isNext (by decide), next_of_isNext (by decide)⟩

/-- A latched request of each of the eight commands, the tag writes with a state at each end of the MESI code. -/
theorem witness_L2CommandsComplete :
    (∀ c ∈ ([0x0C, 0x0E, 0x0F, 0x02, 0x03, 0x08, 0x0B, 0x1C, 0x1F, 0x10, 0x13] : List (Fin 32)),
      (latched (BitVec.ofNat 64 c.val)).l2Pending = some (requestOf (latched (BitVec.ofNat 64 c.val))) ∧
      (requestOf (latched (BitVec.ofNat 64 c.val))).cmd = BitVec.ofNat 5 c.val) ∧
    commandInProgress (latched 0x0C) := by unfold commandInProgress; decide

theorem witness_L2CommandsNeedTheLatch :
    encode .cr = .l2cmd 0b00010 ∧ ¬commandInProgress (acc 0 0 0 []) ∧
    (latched 0x0F).l2Pending = some (requestOf (latched 0x0F)) ∧ (requestOf (latched 0x0F)).cmd ≠ 0b00010 := by
  unfold commandInProgress; decide

/-- A busy state is coherent. -/
theorem witness_StepKeepsLatchCoherent : LatchCoherent (latched 0x0F) ∧ ∃ t, step (latched 0x0F) = .next t :=
  ⟨⟨fun _ => by decide, fun h => absurd h (by decide)⟩, next_of_isNext (by decide)⟩

theorem witness_EngineTurnEndsTheCommand :
    LatchCoherent (latched 0x0F) ∧ (latched 0x0F).turn = .l2Engine ∧ commandInProgress (latched 0x0F) :=
  ⟨witness_StepKeepsLatchCoherent.1, rfl, by unfold commandInProgress; decide⟩

theorem witness_HardwareAgentChangesOnlyItsRegisters :
    ({ acc 0 0 0 [] with turn := .hardware } : State).turn = .hardware ∧ hwAddrs.contains 0xC1 = true ∧
    avail p6 0xC1 = .present ∧ avail p6 0x12 ≠ .present := by decide

/-- The premises of the statements about a step that answers a next state: a WRMSR that changes a register. -/
theorem witness_step_next :
    StoresCanonical (text [0x0F, 0x30] (acc 0x2FF 0 0xC06 [])) ∧
    mover (text [0x0F, 0x30] (acc 0x2FF 0 0xC06 [])) ≠ .hardware ∧
    ∃ t, step (text [0x0F, 0x30] (acc 0x2FF 0 0xC06 [])) = .next t :=
  ⟨by unfold StoresCanonical; decide, by decide, next_of_isNext (by decide)⟩

theorem witness_ResetMeetsTheInvariant : paramsWellFormed { onPentium with physAddrBits := 32 } = true := by
  decide

/-- A run of one step from a state whose APIC enable is clear. -/
theorem witness_ApicDisableIsPermanentUntilReset :
    ((acc 0 0 0 [(0x1B, 0xFEE00100)]).getMsr 0x1B).getLsbD 11 = false ∧
    ∃ t, Reaches (text [0xB9, 0x1B, 0, 0, 0] (acc 0 0 0 [(0x1B, 0xFEE00100)])) t ∧ t.ecx = 0x1B :=
  ⟨by decide, by
    obtain ⟨t, ht⟩ : ∃ t, step (text [0xB9, 0x1B, 0, 0, 0] (acc 0 0 0 [(0x1B, 0xFEE00100)])) = .next t :=
      next_of_isNext (by decide)
    have h : (nextState? (step (text [0xB9, 0x1B, 0, 0, 0] (acc 0 0 0 [(0x1B, 0xFEE00100)])))).map State.ecx = some 0x1B := by
      decide
    rw [ht] at h
    exact ⟨t, .next .refl ht, by simpa [nextState?] using h⟩⟩

theorem witness_FaultsHaveOnlyTheListedCauses :
    step (text [0x0F, 0x32] (reg p6 3 0x10 0 0 [])) = .fault .gp0 ∧ step (text [0x0F, 0x30] (acc 0x12 0 0 [])) = .fault .gp0 :=
  ⟨fault_of_faultOf (by decide), fault_of_faultOf (by decide)⟩

/-- WR8. -/
theorem witness_ResetLowPowerModeEnable :
    ({ resetParams with model := .p6 } : Params).model = .p6 ∧ resetParams.model = .pentiumII ∧
    accesses (acc 0x2A 0 0xD000DE [(0x2A, 0x4D00002)]) 0x2A ∧
    passes .preserve 0xFFFFFFFFFA0C0821 0x4D00002 (writeDatum (acc 0x2A 0 0xD000DE [])) ∧
    passes .preserve 0x1F3F700 0x4D00002 (writeDatum (acc 0x2A 0 0xD000DE [])) := by
  unfold accesses passes; decide

theorem witness_FixedMtrrsTileTheFirstMegabyte : 0x0 < 0x100000 ∧ 0xFFFFF < 0x100000 := by decide

end Sys2Proof.Tests
end

section
/-! The step as it acts on the two stores and the latch, and the statements of 10_state.md: the invariants, the
completion of an L2 command, the hardware agent, the named MTRRs and the bank registers. -/

namespace Sys2Proof.Machine

/-! What one step does to the MSR file, the latch and the program text. -/

/-- The five ways a step can act on the MSR file and the latch: not at all, by a WRMSR past its checks to a row that
holds a value, by a trigger, by a completed command, by the hardware agent. -/
inductive StoreMove (s : State) : State → Prop where
  | none : StoreMove s s
  | write {r : MsrRow} {v : Word64} (hr : r ∈ msrTable) (hv : holdsValue r = true)
      (hc : ∀ c ∈ writeChecks r.addr r.rule v s, c = Option.none) :
      StoreMove s (s.setMsr r.addr (writtenValue r.addr (writeMasks r.rule) (s.getMsr r.addr) v))
  | trigger (hd : (decodeL2 (requestOf s).cmd).isSome = true) : StoreMove s (latchCommand s)
  | completion (out : L2State × L2Response) : StoreMove s (commandDone out s)
  | hardware (hm : mover s = .hardware) : StoreMove s (hwStep s)

/-- Two states hold the same MSR file, latch and program text. -/
structure SameStores (t u : State) : Prop where
  msr       : t.msr = u.msr
  l2Pending : t.l2Pending = u.l2Pending
  program   : t.program = u.program

theorem SameStores.getMsr {t u : State} (h : SameStores t u) (a : Addr) : t.getMsr a = u.getMsr a :=
  congrArg (msrGet · a) h.msr

theorem SameStores.handOver {t u : State} (h : SameStores t u) : SameStores (handOver t) u :=
  ⟨h.msr, h.l2Pending, h.program⟩

/-- A WRMSR's register level acts on the stores by at most one write or one trigger. -/
theorem writeMsr_storeMove {a : Addr} {v : Word64} {s t : State} (h : writeMsr a v s = .next t) : StoreMove s t := by
  rcases writeMsr_next h with ⟨rfl, _⟩ | ⟨_, r, hrow, hv, hc, rfl⟩ | ⟨_, _, _, _, hd, rfl⟩
  · exact .none
  · obtain ⟨hr, rfl⟩ := msrRow_spec hrow
    exact .write hr hv hc
  · exact .trigger hd

/-- An instruction of the core or a command of the engine acts on the stores in one of the five ways. -/
theorem exec_storeMove {i : Instr} {s t : State} (h : exec i s = .next t) :
    ∃ u, StoreMove s u ∧ SameStores t u := by
  rcases instr_kinds i with rfl | rfl | ⟨n, rfl | rfl | rfl⟩ | ⟨c, hc⟩
  · obtain ⟨_, v, u, hread, rfl⟩ := execRdmsr_next h
    rcases readMsr_value hread with ⟨_, _, _, _, _, rfl⟩ | ⟨_, _, rfl⟩ <;> exact ⟨_, .none, rfl, rfl, rfl⟩
  · obtain ⟨_, u, hwrite, rfl⟩ := execWrmsr_next h
    exact ⟨u, writeMsr_storeMove hwrite, rfl, rfl, rfl⟩
  · cases h; exact ⟨s, .none, rfl, rfl, rfl⟩
  · cases h; exact ⟨s, .none, rfl, rfl, rfl⟩
  · cases h; exact ⟨s, .none, rfl, rfl, rfl⟩
  · rw [exec_command hc] at h
    obtain ⟨req, _, _, _, rfl⟩ := completeCommand_next h
    exact ⟨_, .completion _, rfl, rfl, rfl⟩

/-- Every step, of whichever agent, acts on the stores in one of the five ways. -/
theorem step_storeMove {s t : State} (h : step s = .next t) : ∃ u, StoreMove s u ∧ SameStores t u := by
  rcases step_next h with ⟨_, i, _, v, _, hexec, rfl⟩ | ⟨hm, rfl⟩ | ⟨_, _, i, v, _, _, hexec, rfl⟩
  · obtain ⟨u, hmove, hsame⟩ := exec_storeMove hexec
    exact ⟨u, hmove, hsame.handOver⟩
  · exact ⟨_, .hardware hm, rfl, rfl, rfl⟩
  · obtain ⟨u, hmove, hsame⟩ := exec_storeMove hexec
    exact ⟨u, hmove, hsame.handOver⟩

/-! The canonical form of the stores. -/

/-- BBL_CR_BUSY has a row that holds a value, so setting or clearing its bit keeps the MSR file canonical. -/
theorem msrFile_wf_busyMsr {f : List (Nat × Word64)} (b : Bool) (h : MsrFile.wf f) : MsrFile.wf (busyMsr b f) := by
  obtain ⟨r, hr, ha, hv⟩ : ∃ r ∈ msrTable, r.addr = addrBblBusy ∧ holdsValue r = true := by decide
  rw [busyMsr, ← ha]
  exact msrFile_wf_set _ h hr hv

/-- Writing rows that hold a value, one after the other, keeps the MSR file canonical. -/
theorem msrFile_wf_putAll {f : List (Nat × Word64)} {ws : List (Addr × Word64)} (h : MsrFile.wf f)
    (hws : ∀ a ∈ ws.map Prod.fst, ∃ r ∈ msrTable, r.addr = a ∧ holdsValue r = true) :
    MsrFile.wf (msrPutAll f ws) := by
  induction ws generalizing f with
  | nil => exact h
  | cons w ws ih =>
    obtain ⟨a, v⟩ := w
    obtain ⟨r, hr, rfl, hv⟩ := hws a (by simp)
    exact ih (msrFile_wf_set v h hr hv) fun b hb => hws b (List.mem_cons_of_mem _ hb)

/-- The seven registers a completion writes are rows of the table that hold a value (41_l2_commands.md R233). -/
theorem responseWrites_rows (resp : L2Response) (f : List (Nat × Word64)) :
    ∀ a ∈ (responseWrites resp f).map Prod.fst, ∃ r ∈ msrTable, r.addr = a ∧ holdsValue r = true := by
  have hall : ([addrBblCtl, addrBblD0, addrBblD1, addrBblD2, addrBblD3, addrBblDecc, addrBblBusy].all fun a =>
      msrTable.any fun r => r.addr == a && holdsValue r) = true := by decide
  intro a ha
  simpa using List.all_eq_true.1 hall a ha

theorem StoreMove.keeps_msrFile_wf {s t : State} (h : StoreMove s t) (hw : MsrFile.wf s.msr) : MsrFile.wf t.msr := by
  cases h with
  | none => exact hw
  | write hr hv _ => exact msrFile_wf_set _ hw hr hv
  | trigger _ => exact msrFile_wf_busyMsr true hw
  | completion out => exact msrFile_wf_putAll hw (responseWrites_rows out.2 s.msr)
  | hardware _ =>
    refine msrFile_wf_hwReplace s.draws hw fun r hr => ?_
    obtain ⟨hmem, hhw, _⟩ := mem_hwRows.1 hr
    obtain ⟨_, _, hv, _⟩ := hw_row_shape r hmem hhw
    exact ⟨hmem, hv⟩

theorem StoreMove.program_eq {s t : State} (h : StoreMove s t) : t.program = s.program := by
  cases h <;> rfl

/-- Settles O38: each of the five moves writes only rows that hold a value, and none touches the program text. -/
theorem stepKeepsStoresCanonical : Obligations.StepKeepsStoresCanonical := by
  rintro s t ⟨hmsr, hprog⟩ hstep
  obtain ⟨u, hmove, hsame⟩ := step_storeMove hstep
  constructor
  · rw [hsame.msr]; exact hmove.keeps_msrFile_wf hmsr
  · rw [hsame.program, hmove.program_eq]; exact hprog

/-! The registers of the hardware agent. -/

/-- The addresses of Table R33 are those of the rows classed HW (10_state.md R33). -/
theorem mem_hwAddrs_iff {a : Addr} : a ∈ hwAddrs ↔ ∃ r ∈ msrTable, r.hw = true ∧ r.addr = a := by
  have hlisted : (hwAddrs.all fun a => msrTable.any fun r => r.hw && r.addr == a) = true := by decide
  have hrows : (msrTable.all fun r => !r.hw || hwAddrs.contains r.addr) = true := by decide
  constructor
  · intro ha
    simpa using List.all_eq_true.1 hlisted a ha
  · rintro ⟨r, hr, hhw, rfl⟩
    simpa [hhw] using List.all_eq_true.1 hrows r hr

/-- The hardware agent leaves its free value in each present register classed HW. -/
theorem hwStep_getMsr_of_hw {s : State} {a : Addr} (ha : a ∈ hwAddrs) (hp : avail s.params a = .present) :
    (hwStep s).getMsr a = Config.hwUpdate s.draws a (s.getMsr a) := by
  obtain ⟨r, hr, hhw, rfl⟩ := mem_hwAddrs_iff.1 ha
  exact msrGet_hwReplace_mem s.draws s.msr (mem_hwRows.2 ⟨hr, hhw, hp⟩) (hwRows_nodup s.params)

/-- The hardware agent leaves every register that is not classed HW or not present. -/
theorem hwStep_getMsr_of_not {s : State} {a : Addr} (ha : a ∉ hwAddrs ∨ avail s.params a ≠ .present) :
    (hwStep s).getMsr a = s.getMsr a := by
  refine msrGet_hwReplace_other _ _ _ fun r hr hra => ?_
  obtain ⟨hmem, hhw, hp⟩ := mem_hwRows.1 hr
  rw [hra] at hp
  exact ha.elim (fun hn => hn (mem_hwAddrs_iff.2 ⟨r, hmem, hhw, hra⟩)) fun hn => hn hp

/-! The bits each agent can change. -/

/-- The bits of a row a WRMSR can change (40_msr_access.md R202, R206, R212). -/
def softwareBits (r : MsrRow) : Word64 := if r.addr = addrBblAddr then 0xFFFFFFFF else (writeMasks r.rule).rw

/-- The bits of a register the L2 engine or a trigger can change (41_l2_commands.md R232, R233). -/
def engineBits (a : Addr) : Word64 :=
  if a = addrBblBusy then 1
  else if a = addrBblDecc then 0xFF
  else if a = addrBblCtl then 0x13C00
  else if a = addrBblD0 ∨ a = addrBblD1 ∨ a = addrBblD2 ∨ a = addrBblD3 then BitVec.allOnes 64
  else 0

/-- A bit outside the field is as before, a bit inside is the field's. -/
theorem getLsbD_setField {w : Nat} (v : Word64) {lo : Nat} (f : BitVec w) (hlo : lo + w ≤ 64) (k : Nat) :
    (setField v lo f).getLsbD k = if lo ≤ k ∧ k < lo + w then f.getLsbD (k - lo) else v.getLsbD k := by
  simp only [setField, BitVec.getLsbD_or, BitVec.getLsbD_and, BitVec.getLsbD_not, BitVec.getLsbD_shiftLeft,
    BitVec.getLsbD_setWidth, BitVec.getLsbD_allOnes]
  have hv : v.getLsbD k = true → k < 64 := BitVec.lt_of_getLsbD
  rcases Nat.lt_or_ge k lo with hl | hl
  · simpa [hl, Nat.not_le.2 hl] using hv
  · by_cases hw : k < lo + w
    · simp [hl, Nat.not_lt.2 hl, hw, show k < 64 by omega, show k - lo < w by omega, show k - lo < 64 by omega]
    · have hf : f.getLsbD (k - lo) = false := BitVec.getLsbD_of_ge f _ (by omega)
      simpa [hl, hw, hf, show ¬ k - lo < w by omega] using hv

/-- Reading back a field that was set. -/
theorem extractLsb'_setField_same {w : Nat} (v : Word64) {lo : Nat} (f : BitVec w) (hlo : lo + w ≤ 64) :
    (setField v lo f).extractLsb' lo w = f := by
  ext k hk
  simp [getLsbD_setField v f hlo, hk]

/-- Reading a field that does not meet the one that was set. -/
theorem extractLsb'_setField_other {w n : Nat} (v : Word64) {lo : Nat} (f : BitVec w) (hlo : lo + w ≤ 64) {i : Nat}
    (hdis : i + n ≤ lo ∨ lo + w ≤ i) : (setField v lo f).extractLsb' i n = v.extractLsb' i n := by
  ext k hk
  have hout : ¬ (lo ≤ i + k ∧ i + k < lo + w) := by omega
  simp [getLsbD_setField v f hlo, hout]

/-- Two values agree on a mask when they agree at its bits. -/
theorem and_eq_and_of_getLsbD {x y k : Word64} (h : ∀ i, k.getLsbD i = true → x.getLsbD i = y.getLsbD i) :
    x &&& k = y &&& k := by
  refine BitVec.eq_of_getLsbD_eq fun i _ => ?_
  cases hk : k.getLsbD i with
  | false => simp [hk]
  | true => simp [hk, h i hk]

/-- Choosing bits of `v` where `m` has them and of `x` elsewhere leaves the bits of a mask apart from `m`. -/
theorem merge_and_of_disjoint {m k : Word64} (x v : Word64) (h : m &&& k = 0) :
    ((x &&& ~~~m) ||| (v &&& m)) &&& k = x &&& k := by
  refine and_eq_and_of_getLsbD fun i hk => ?_
  have hm : m.getLsbD i = false := by simpa [hk] using congrArg (BitVec.getLsbD · i) h
  simp only [BitVec.getLsbD_or, BitVec.getLsbD_and, BitVec.getLsbD_not, hm, BitVec.lt_of_getLsbD hk, decide_true,
    Bool.not_false, Bool.and_true, Bool.and_false, Bool.or_false]

/-- A write leaves the bits software cannot change (40_msr_access.md R202, R206). -/
theorem writtenValue_and {r : MsrRow} {k : Word64} (held v : Word64) (h : softwareBits r &&& k = 0) :
    writtenValue r.addr (writeMasks r.rule) held v &&& k = held &&& k := by
  unfold softwareBits at h
  unfold writtenValue
  split <;> rename_i ha
  · rw [if_pos ha] at h
    rw [← merge_and_of_disjoint held (v &&& 0xFFFFFFF8) h, BitVec.and_assoc]
    rfl
  · rw [if_neg ha] at h
    exact merge_and_of_disjoint held v h

/-- A field set inside a mask leaves the bits apart from the mask. -/
theorem setField_and_of_disjoint {w : Nat} {m k : Word64} (v : Word64) {lo : Nat} (f : BitVec w) (hlo : lo + w ≤ 64)
    (hm : ∀ i < lo + w, lo ≤ i → m.getLsbD i = true) (h : m &&& k = 0) :
    setField v lo f &&& k = v &&& k := by
  refine and_eq_and_of_getLsbD fun i hk => ?_
  have hmi : m.getLsbD i = false := by simpa [hk] using congrArg (BitVec.getLsbD · i) h
  have hout : ¬ (lo ≤ i ∧ i < lo + w) := fun ⟨h1, h2⟩ => by simp [hm i h2 h1] at hmi
  rw [getLsbD_setField v f hlo, if_neg hout]

/-- A response changes the HW bits of BBL_CR_CTL alone (41_l2_commands.md R233). -/
theorem ctlWithResponse_and {k : Word64} (v : Word64) (resp : L2Response) (h : (0x13C00 : Word64) &&& k = 0) :
    ctlWithResponse v resp &&& k = v &&& k :=
  calc ctlWithResponse v resp &&& k
      = setField (setField v 16 (bitOf resp.hit)) 12 resp.stateFrom &&& k :=
        setField_and_of_disjoint _ _ (by decide) (by decide) h
    _ = setField v 16 (bitOf resp.hit) &&& k := setField_and_of_disjoint _ _ (by decide) (by decide) h
    _ = v &&& k := setField_and_of_disjoint _ _ (by decide) (by decide) h

theorem latchCommand_and {a : Addr} {k : Word64} (s : State) (h : engineBits a &&& k = 0) :
    (latchCommand s).getMsr a &&& k = s.getMsr a &&& k := by
  rw [getMsr_latchCommand]
  split
  · subst a
    exact setField_and_of_disjoint _ _ (by decide) (by decide) h
  · rfl

theorem commandDone_and {a : Addr} {k : Word64} (out : L2State × L2Response) (s : State)
    (h : engineBits a &&& k = 0) : (commandDone out s).getMsr a &&& k = s.getMsr a &&& k := by
  have whole (ha : engineBits a = BitVec.allOnes 64) (x y : Word64) : x &&& k = y &&& k := by
    have hk : k = 0 := by rwa [ha, BitVec.allOnes_and] at h
    simp [hk]
  rw [getMsr_commandDone]
  split_ifs with hbusy hdecc hd3 hd2 hd1 hd0 hctl
  · subst a; exact setField_and_of_disjoint _ _ (by decide) (by decide) h
  · subst a; exact setField_and_of_disjoint _ _ (by decide) (by decide) h
  · subst a; exact whole rfl _ _
  · subst a; exact whole rfl _ _
  · subst a; exact whole rfl _ _
  · subst a; exact whole rfl _ _
  · subst a; exact ctlWithResponse_and _ _ h
  · rfl

/-- A step keeps the bits of a register that neither software nor the engine can change, where the hardware agent does
not have the register or does not move. -/
theorem step_keeps_bits {s t : State} {a : Addr} {k : Word64} (h : step s = .next t)
    (hsw : ∀ r ∈ msrTable, r.addr = a → softwareBits r &&& k = 0) (heng : engineBits a &&& k = 0)
    (hhw : mover s = .hardware → a ∉ hwAddrs) :
    t.getMsr a &&& k = s.getMsr a &&& k := by
  obtain ⟨u, hmove, hsame⟩ := step_storeMove h
  rw [hsame.getMsr]
  cases hmove with
  | none => rfl
  | @write r v hr _ _ =>
    rw [getMsr_setMsr]
    split <;> rename_i ha
    · subst ha
      exact writtenValue_and _ v (hsw r hr rfl)
    · rfl
  | trigger _ => exact latchCommand_and s heng
  | completion out => exact commandDone_and out s heng
  | hardware hm => rw [hwStep_getMsr_of_not (.inl (hhw hm))]

/-- No agent has a bit of the mask at the address. -/
def bitsFixed (a : Addr) (k : Word64) : Bool :=
  engineBits a &&& k == 0 && !hwAddrs.contains a && msrTable.all fun r => r.addr != a || softwareBits r &&& k == 0

theorem step_keeps_fixed_bits {s t : State} {a : Addr} {k : Word64} (h : step s = .next t)
    (hfix : bitsFixed a k = true) : t.getMsr a &&& k = s.getMsr a &&& k := by
  obtain ⟨⟨heng, hhw⟩, hsw⟩ : (engineBits a &&& k = 0 ∧ a ∉ hwAddrs) ∧
      ∀ r ∈ msrTable, r.addr = a → softwareBits r &&& k = 0 := by
    simpa [bitsFixed, imp_iff_not_or] using hfix
  exact step_keeps_bits h hsw heng fun _ => hhw

/-- Settles O41: no agent has a read-only bit of these three registers. -/
theorem stepKeepsReadOnlyBits : Obligations.StepKeepsReadOnlyBits := fun _ _ hstep =>
  ⟨step_keeps_fixed_bits hstep (by decide), step_keeps_fixed_bits hstep (by decide),
    step_keeps_fixed_bits hstep (by decide)⟩

/-- The reserved and unlisted bits of Table R212 are no agent's. -/
theorem bitsFixed_reserved : ∀ m ∈ maskRows, bitsFixed m.addr m.rsv = true := by decide

/-- The unlisted bits of an MCn_STATUS are neither software's nor the engine's (40_msr_access.md R213). -/
theorem mcStatus_unlisted_bits {a : Addr} (ha : a ∈ mcStatusAddrs) :
    engineBits a &&& 0x01FFFFFF00000000 = 0 ∧
      ∀ r ∈ msrTable, r.addr = a → softwareBits r &&& 0x01FFFFFF00000000 = 0 := by
  have hall : (mcStatusAddrs.all fun a => engineBits a &&& 0x01FFFFFF00000000 == 0 &&
      msrTable.all fun r => r.addr != a || softwareBits r &&& 0x01FFFFFF00000000 == 0) = true := by decide
  simpa [imp_iff_not_or] using List.all_eq_true.1 hall a ha

/-- Settles O42: reserved bits are no agent's, and the unlisted bits of an MCn_STATUS are the hardware agent's alone. -/
theorem stepKeepsReservedBits : Obligations.StepKeepsReservedBits := by
  intro s t hstep
  refine ⟨fun m hm => step_keeps_fixed_bits hstep (bitsFixed_reserved m hm),
    step_keeps_fixed_bits hstep (by decide), fun hmover a ha => ?_⟩
  obtain ⟨heng, hsw⟩ := mcStatus_unlisted_bits ha
  exact step_keeps_bits hstep hsw heng fun hm => absurd hm hmover

/-! The coherence of the latch. -/

/-- The request spells the locked registers alone, and BUSY is locked to writes. -/
theorem LatchCoherent.of_locked_eq {s t : State} (h : LatchCoherent s) (hpend : t.l2Pending = s.l2Pending)
    (hmsr : ∀ a, writeLocked a = true → t.getMsr a = s.getMsr a) : LatchCoherent t := by
  have hbusy : l2Busy t = l2Busy s := by rw [l2Busy, l2Busy, hmsr _ (by decide)]
  have hreq : requestOf t = requestOf s := by
    simp only [requestOf, hmsr addrBblCtl3 (by decide), hmsr addrBblCtl (by decide), hmsr addrBblAddr (by decide),
      hmsr addrBblD0 (by decide), hmsr addrBblD1 (by decide), hmsr addrBblD2 (by decide), hmsr addrBblD3 (by decide),
      hmsr addrBblDecc (by decide)]
  unfold LatchCoherent
  rw [hbusy, hreq, hpend]
  exact h

/-- The request does not spell BBL_CR_BUSY, so a latch leaves it. -/
theorem requestOf_latchCommand (s : State) : requestOf (latchCommand s) = requestOf s := by
  simp [requestOf, getMsr_latchCommand]

theorem l2Busy_latchCommand (s : State) : l2Busy (latchCommand s) = true := by
  rw [l2Busy, getMsr_latchCommand, if_pos rfl, getLsbD_setField _ _ (by decide)]
  rfl

theorem l2Busy_commandDone (out : L2State × L2Response) (s : State) : l2Busy (commandDone out s) = false := by
  rw [l2Busy, getMsr_commandDone, if_pos rfl, getLsbD_setField _ _ (by decide)]
  rfl

/-- BUSY read through its mask: what keeps the masked register keeps the bit. -/
theorem l2Busy_eq_of_and {s t : State} (h : t.getMsr addrBblBusy &&& 1 = s.getMsr addrBblBusy &&& 1) :
    l2Busy t = l2Busy s := by
  simpa [l2Busy] using congrArg (BitVec.getLsbD · 0) h

/-- A WRMSR past its checks leaves BUSY: software has no bit of BBL_CR_BUSY. -/
theorem l2Busy_write {r : MsrRow} (s : State) (v : Word64) (hr : r ∈ msrTable) :
    l2Busy (s.setMsr r.addr (writtenValue r.addr (writeMasks r.rule) (s.getMsr r.addr) v)) = l2Busy s := by
  refine l2Busy_eq_of_and ?_
  rw [getMsr_setMsr]
  split <;> rename_i ha
  · rw [ha]
    refine writtenValue_and _ v ?_
    rw [softwareBits, ← ha, if_neg (by decide), busy_row_rule r hr ha.symm]
    rfl
  · rfl

/-- A WRMSR past its checks keeps the latch coherent: while busy it is to no register the latch depends on, and
otherwise it leaves BUSY clear (40_msr_access.md R209). -/
theorem latchCoherent_write {s : State} {r : MsrRow} {v : Word64} (h : LatchCoherent s) (hr : r ∈ msrTable)
    (hc : ∀ c ∈ writeChecks r.addr r.rule v s, c = none) :
    LatchCoherent (s.setMsr r.addr (writtenValue r.addr (writeMasks r.rule) (s.getMsr r.addr) v)) := by
  cases hb : l2Busy s with
  | true =>
    have hfree : writeLocked r.addr = false := by simpa [hb] using writeChecks_not_locked hc
    exact h.of_locked_eq rfl fun a ha => getMsr_setMsr_other s _ (by rintro rfl; simp [hfree] at ha)
  | false =>
    have hb' := (l2Busy_write s v hr).trans hb
    exact ⟨fun ht => by simp [hb'] at ht, fun _ => h.2 hb⟩

theorem StoreMove.keeps_latchCoherent {s t : State} (h : StoreMove s t) (hl : LatchCoherent s) : LatchCoherent t := by
  cases h with
  | none => exact hl
  | write hr _ hc => exact latchCoherent_write hl hr hc
  | trigger hd =>
    exact ⟨fun _ => by rw [requestOf_latchCommand]; exact ⟨rfl, hd⟩, fun hb => by simp [l2Busy_latchCommand] at hb⟩
  | completion out => exact ⟨fun hb => by simp [l2Busy_commandDone] at hb, fun _ => rfl⟩
  | hardware _ =>
    refine hl.of_locked_eq rfl fun a ha => hwStep_getMsr_of_not (.inl fun hhw => ?_)
    obtain ⟨r, hr, hrhw, rfl⟩ := mem_hwAddrs_iff.1 hhw
    obtain ⟨hfree, _⟩ := hw_row_shape r hr hrhw
    simp [ha] at hfree

/-- Settles O39: a write past its checks is to no locked register while busy, a trigger latches what the registers
spell, a completion empties the latch, and the hardware agent has no locked register. -/
theorem stepKeepsLatchCoherent : Obligations.StepKeepsLatchCoherent := by
  intro s t hl hstep
  obtain ⟨u, hmove, hsame⟩ := step_storeMove hstep
  exact (hmove.keeps_latchCoherent hl).of_locked_eq hsame.l2Pending fun a _ => hsame.getMsr a

/-! The completion of an L2 command. -/

theorem ctlWithResponse_hit (v : Word64) (resp : L2Response) : (ctlWithResponse v resp).getLsbD 16 = resp.hit := by
  simp only [ctlWithResponse, getLsbD_setField _ _ (show 10 + 2 ≤ 64 by decide),
    getLsbD_setField _ _ (show 12 + 2 ≤ 64 by decide), getLsbD_setField _ _ (show 16 + 1 ≤ 64 by decide)]
  simp [bitOf]

theorem ctlWithResponse_stateFrom (v : Word64) (resp : L2Response) :
    (ctlWithResponse v resp).extractLsb' 12 2 = resp.stateFrom := by
  rw [ctlWithResponse, extractLsb'_setField_other _ _ (by decide) (by decide),
    extractLsb'_setField_same _ _ (by decide)]

theorem ctlWithResponse_wayFrom (v : Word64) (resp : L2Response) :
    (ctlWithResponse v resp).extractLsb' 10 2 = resp.wayFrom :=
  extractLsb'_setField_same _ _ (by decide)

theorem ctlWithResponse_other (v : Word64) (resp : L2Response) {k : Nat} (hk : k ∉ [10, 11, 12, 13, 16]) :
    (ctlWithResponse v resp).getLsbD k = v.getLsbD k := by
  obtain ⟨h10, h11, h12, h13, h16⟩ : k ≠ 10 ∧ k ≠ 11 ∧ k ≠ 12 ∧ k ≠ 13 ∧ k ≠ 16 := by simpa using hk
  rw [ctlWithResponse, getLsbD_setField _ _ (by decide), if_neg (by omega), getLsbD_setField _ _ (by decide),
    if_neg (by omega), getLsbD_setField _ _ (by decide), if_neg (by omega)]

/-- The completion has the effect of 41_l2_commands.md R233. -/
theorem commandEffect_commandDone (out : L2State × L2Response) (s : State) :
    CommandEffect out s (afterDraw (commandDone out s)) := by
  have hctl : (commandDone out s).getMsr 0x119 = ctlWithResponse (s.getMsr 0x119) out.2 := getMsr_commandDone out s _
  have hdecc : (commandDone out s).getMsr 0x118 = setField (s.getMsr 0x118) 0 out.2.ecc := getMsr_commandDone out s _
  have hbusy : (commandDone out s).getMsr 0x11B = setField (s.getMsr 0x11B) 0 (bitOf false) :=
    getMsr_commandDone out s _
  exact {
    l2 := rfl
    latch := rfl
    hit := by rw [afterDraw_getMsr, hctl, ctlWithResponse_hit]
    stateFrom := by rw [afterDraw_getMsr, hctl, ctlWithResponse_stateFrom]
    wayFrom := by rw [afterDraw_getMsr, hctl, ctlWithResponse_wayFrom]
    ctlElse := fun k hk => by rw [afterDraw_getMsr, hctl, ctlWithResponse_other _ _ hk]
    chunk0 := getMsr_commandDone out s _
    chunk1 := getMsr_commandDone out s _
    chunk2 := getMsr_commandDone out s _
    chunk3 := getMsr_commandDone out s _
    ecc := by rw [afterDraw_getMsr, hdecc, extractLsb'_setField_same _ _ (by decide)]
    eccElse := fun k hk => by
      rw [afterDraw_getMsr, hdecc, getLsbD_setField _ _ (by decide), if_neg (by omega)]
    busy := l2Busy_commandDone out s
    busyElse := fun k hk => by
      rw [afterDraw_getMsr, hbusy, getLsbD_setField _ _ (by decide), if_neg (by omega)]
    msrElse := fun a ha => by
      simp only [List.mem_cons, List.not_mem_nil, or_false, not_or] at ha
      obtain ⟨hctl, hd0, hd1, hd2, hd3, hdecc, hbusy⟩ := ha
      rw [afterDraw_getMsr, getMsr_commandDone, if_neg hbusy, if_neg hdecc, if_neg hd3, if_neg hd2, if_neg hd1,
        if_neg hd0, if_neg hctl]
    frame := rfl }

theorem commandInProgress_iff (s : State) : commandInProgress s ↔ l2Busy s = true := Iff.rfl

/-- The command in progress completes, for whatever `L2Exec` answers (41_l2_commands.md R233). -/
theorem exec_latched_command {s : State} {req : L2Request} {i : Instr} (hb : commandInProgress s)
    (hp : s.l2Pending = some req) (hi : commandCode i = some req.cmd) :
    exec i s = .next (afterDraw (commandDone (Config.l2Exec req s.l2 s.draws) s)) := by
  rw [exec_command hi, completeCommand, hp]
  exact if_pos ⟨(commandInProgress_iff s).1 hb, rfl⟩

/-- Settles O34: each of the eight is the completion of its own code. -/
theorem l2CommandsComplete : Obligations.L2CommandsComplete := by
  intro s req hb hp
  have complete {i : Instr} {c : BitVec 5} (hi : commandCode i = some c) (hc : req.cmd = c) :
      ∃ t, exec i s = .next t ∧ CommandEffect (Config.l2Exec req s.l2 s.draws) s t :=
    ⟨_, exec_latched_command hb hp (hc ▸ hi), commandEffect_commandDone _ s⟩
  exact ⟨complete rfl, complete rfl, complete rfl, complete rfl, complete rfl, fun _ => complete rfl,
    fun _ => complete rfl, fun _ => complete rfl⟩

/-- The instruction a code decodes to is the command of that code (30_encoding.md R170). -/
theorem commandCode_of_decodeL2 {c : BitVec 5} {i : Instr} (h : decodeL2 c = some i) : commandCode i = some c := by
  have hall : ∀ c : BitVec 5, (decodeL2 c).all (fun i => commandCode i == some c) = true := by decide
  simpa [h] using hall c

/-- In a coherent busy state the engine's step is the completion of the request the registers spell. -/
theorem engineStep_of_coherent {s : State} (hl : LatchCoherent s) (hb : commandInProgress s) :
    engineStep s = .next (handOver (afterDraw (commandDone (Config.l2Exec (requestOf s) s.l2 s.draws) s))) := by
  obtain ⟨hp, hd⟩ := hl.1 ((commandInProgress_iff s).1 hb)
  obtain ⟨i, hi⟩ := Option.isSome_iff_exists.1 hd
  simp only [engineStep, hp, decode, hi, exec_latched_command hb hp (commandCode_of_decodeL2 hi), afterNext]

/-- Settles O36: the engine moves, completes the latched command, and the completion clears BUSY and the latch. -/
theorem engineTurnEndsTheCommand : Obligations.EngineTurnEndsTheCommand := by
  intro s hl hturn hb
  have hmover : mover s = .l2Engine := by simp [mover, hturn, (commandInProgress_iff s).1 hb]
  refine ⟨_, by rw [step, hmover]; exact engineStep_of_coherent hl hb, ?_, rfl⟩
  simp [commandInProgress_iff, l2Busy_commandDone]

/-! The turn of the hardware agent. -/

/-- Settles O37: the step is one `HwUpdate`, over exactly the present rows classed HW. -/
theorem hardwareAgentChangesOnlyItsRegisters : Obligations.HardwareAgentChangesOnlyItsRegisters := by
  intro s hturn
  have hmover : mover s = .hardware := by simp [mover, hturn]
  refine ⟨handOver (hwStep s), by rw [step, hmover]; rfl, rfl, fun a ha hp => ?_, fun a ha => ?_⟩
  · rw [handOver_getMsr, hwStep_getMsr_of_hw ha hp]
  · rw [handOver_getMsr, hwStep_getMsr_of_not ha]

/-! The readings of the table. -/

/-- An address of the eight consecutive ranges a fixed-range MTRR governs (20_memory.md R143). -/
def FixedMtrr.Governs (m : FixedMtrr) (x : Nat) : Prop := m.start ≤ x ∧ x < m.start + 8 * m.size

/-- The registers stand one after the other from `lo` to `hi`, each starting where the one before it ends. -/
def TilesFrom (hi : Nat) : Nat → List FixedMtrr → Prop
  | lo, [] => lo = hi
  | lo, m :: ms => m.start = lo ∧ TilesFrom hi (lo + 8 * m.size) ms

/-- Every register of a tiling lies inside it. -/
theorem TilesFrom.within {hi lo : Nat} {ms : List FixedMtrr} (h : TilesFrom hi lo ms) :
    lo ≤ hi ∧ ∀ m ∈ ms, lo ≤ m.start ∧ m.start + 8 * m.size ≤ hi := by
  induction ms generalizing lo with
  | nil => exact ⟨Nat.le_of_eq h, by simp⟩
  | cons m ms ih =>
    obtain ⟨rfl, htail⟩ := h
    obtain ⟨hle, hin⟩ := ih htail
    refine ⟨by omega, fun q hq => ?_⟩
    rcases List.mem_cons.1 hq with rfl | hq
    · exact ⟨Nat.le_refl _, hle⟩
    · obtain ⟨hlo, hhi⟩ := hin q hq
      exact ⟨by omega, hhi⟩

/-- Exactly one register of a tiling governs an address inside it. -/
theorem TilesFrom.governs_unique {hi lo x : Nat} {ms : List FixedMtrr} (h : TilesFrom hi lo ms) (hlo : lo ≤ x)
    (hhi : x < hi) : ∃ m ∈ ms, m.Governs x ∧ ∀ m' ∈ ms, m'.Governs x → m' = m := by
  induction ms generalizing lo with
  | nil =>
    have hend : lo = hi := h
    omega
  | cons m ms ih =>
    obtain ⟨rfl, htail⟩ := h
    rcases Nat.lt_or_ge x (m.start + 8 * m.size) with hx | hx
    · refine ⟨m, by simp, ⟨hlo, hx⟩, fun q hq hgov => ?_⟩
      rcases List.mem_cons.1 hq with rfl | hq
      · rfl
      · have hstart := (htail.within.2 q hq).1
        exact absurd hgov.1 (by omega)
    · obtain ⟨q, hq, hgov, huniq⟩ := ih htail hx
      refine ⟨q, List.mem_cons_of_mem _ hq, hgov, fun q' hq' hgov' => ?_⟩
      rcases List.mem_cons.1 hq' with rfl | hq'
      · exact absurd hgov'.2 (by omega)
      · exact huniq q' hq' hgov'

/-- The eleven fixed-range MTRRs stand one after the other over the first megabyte. -/
theorem fixedMtrrs_tile : TilesFrom 0x100000 0 fixedMtrrs := by simp [fixedMtrrs, TilesFrom]

/-- Settles O50: the names by the table, the tiling by its general lemmas. -/
theorem fixedMtrrsTileTheFirstMegabyte : Obligations.FixedMtrrsTileTheFirstMegabyte :=
  ⟨by decide, fun m hm => (fixedMtrrs_tile.within.2 m hm).2,
    fun x hx => fixedMtrrs_tile.governs_unique (Nat.zero_le x) hx⟩

/-- Settles O49: the addresses and the names of the twenty rows, a closed fact of the table. -/
theorem bankRegistersInTableOrder : Obligations.BankRegistersInTableOrder := ⟨by decide, by decide⟩

end Sys2Proof.Machine
end

section
/-! What no step changes: the statement of 20_memory.md on the program text, the privilege level and the
parameters. -/

namespace Sys2Proof.Machine

/-- Two states hold the same program text, privilege level and parameters (20_memory.md R131, 60_exceptions.md R282,
00_scope.md R14). -/
structure SameConstants (t s : State) : Prop where
  program : t.program = s.program
  cpl     : t.cpl = s.cpl
  params  : t.params = s.params

theorem SameConstants.handOver {t s : State} (h : SameConstants t s) : SameConstants (handOver t) s :=
  ⟨h.program, h.cpl, h.params⟩

theorem SameConstants.advance {t s : State} (n : Word32) (h : SameConstants t s) : SameConstants (advance n t) s :=
  ⟨h.program, h.cpl, h.params⟩

/-- Each of the five ways to act on the MSR file and the latch leaves the constants. -/
theorem StoreMove.sameConstants {s t : State} (h : StoreMove s t) : SameConstants t s where
  program := h.program_eq
  cpl := by cases h <;> rfl
  params := by cases h <;> rfl

/-- Beside what it does to the stores, an instruction moves EIP, loads EAX, ECX or EDX, or draws; none of these is
one of the constants. -/
theorem exec_sameConstants {i : Instr} {s t : State} (h : exec i s = .next t) : SameConstants t s := by
  rcases instr_kinds i with rfl | rfl | ⟨_, hmov⟩ | ⟨_, hc⟩
  · obtain ⟨_, _, _, hread, rfl⟩ := execRdmsr_next h
    rcases readMsr_value hread with ⟨_, _, _, _, _, rfl⟩ | ⟨_, _, rfl⟩ <;> exact ⟨rfl, rfl, rfl⟩
  · obtain ⟨_, _, hwrite, rfl⟩ := execWrmsr_next h
    exact (writeMsr_storeMove hwrite).sameConstants.advance 2
  · rcases hmov with rfl | rfl | rfl <;> cases h <;> exact ⟨rfl, rfl, rfl⟩
  · rw [exec_command hc] at h
    obtain ⟨_, _, _, _, rfl⟩ := completeCommand_next h
    exact ⟨rfl, rfl, rfl⟩

/-- Whichever agent moves, the step leaves the constants. -/
theorem step_sameConstants {s t : State} (h : step s = .next t) : SameConstants t s := by
  rcases step_next h with ⟨_, _, _, _, _, hexec, rfl⟩ | ⟨hm, rfl⟩ | ⟨_, _, _, _, _, _, hexec, rfl⟩
  · exact (exec_sameConstants hexec).handOver
  · exact (StoreMove.hardware hm).sameConstants.handOver
  · exact (exec_sameConstants hexec).handOver

/-- Settles O44: the three fields of `SameConstants`, which the step of every agent keeps. -/
theorem stepKeepsProgramPrivilegeAndParameters : Obligations.StepKeepsProgramPrivilegeAndParameters := by
  intro s t hstep
  obtain ⟨hprogram, hcpl, hparams⟩ := step_sameConstants hstep
  exact ⟨hprogram, hcpl, hparams⟩

end Sys2Proof.Machine
end

section
/-! The statements of 30_encoding.md: the decoder and the encoder are inverse to each other for both kinds of code,
byte 0 decides, and a step runs what the decoder reads, the word `withFetchWord` places among them. -/

namespace Sys2Proof

/-! The decoder of the instruction bytes, once for each of its forms. -/

/-- Bit k of an immediate is a bit of the byte it falls in, byte 1 the lowest (30_encoding.md R163). -/
theorem getLsbD_immOfBytes (b1 b2 b3 b4 : Byte) (k : Nat) :
    (immOfBytes b1 b2 b3 b4).getLsbD k =
      if k < 8 then b1.getLsbD k else if k < 16 then b2.getLsbD (k - 8)
      else if k < 24 then b3.getLsbD (k - 16) else b4.getLsbD (k - 24) := by
  simp only [immOfBytes, BitVec.getLsbD_append]
  grind

/-- The four bytes of an immediate spell it (30_encoding.md R162, R163). -/
theorem immOfBytes_extracts (n : Word32) :
    immOfBytes (n.extractLsb' 0 8) (n.extractLsb' 8 8) (n.extractLsb' 16 8) (n.extractLsb' 24 8) = n := by
  refine BitVec.eq_of_getLsbD_eq fun k hk => ?_
  simp only [getLsbD_immOfBytes, BitVec.getLsbD_extractLsb']
  grind

/-- The immediate four bytes spell has those bytes (30_encoding.md R162, R163). -/
theorem bytesOfImm_immOfBytes (b1 b2 b3 b4 : Byte) : bytesOfImm (immOfBytes b1 b2 b3 b4) = [b1, b2, b3, b4] := by
  simp only [bytesOfImm, List.cons.injEq, and_true]
  refine ⟨?_, ?_, ?_, ?_⟩ <;>
  · ext k hk
    simp only [BitVec.getElem_extractLsb', getLsbD_immOfBytes]
    grind

/-- After the escape byte there are two instructions, each of one byte more. -/
theorem decodeAfterEscape_ok_iff {bs rest : List Byte} {i : Instr} :
    decodeAfterEscape bs = .ok i rest ↔ (i = .rdmsr ∧ bs = 0x32 :: rest) ∨ (i = .wrmsr ∧ bs = 0x30 :: rest) := by
  cases bs with
  | nil => simp [decodeAfterEscape]
  | cons b tail =>
    by_cases hread : b = 0x32
    · simp [decodeAfterEscape, hread, eq_comm]
    · by_cases hwrite : b = 0x30
      · simp [decodeAfterEscape, hwrite, eq_comm]
      · simp_all [decodeAfterEscape]

/-- Format MOVI takes the four bytes of one immediate. -/
theorem decodeImmediate_ok_iff {mov : Word32 → Instr} {bs rest : List Byte} {i : Instr} :
    decodeImmediate mov bs = .ok i rest ↔ ∃ n, i = mov n ∧ bs = bytesOfImm n ++ rest := by
  constructor
  · intro h
    unfold decodeImmediate at h
    split at h
    · rename_i b1 b2 b3 b4 tail
      cases h
      exact ⟨_, rfl, by rw [bytesOfImm_immOfBytes]; rfl⟩
    · cases h
  · rintro ⟨n, rfl, rfl⟩
    simp [bytesOfImm, decodeImmediate, immOfBytes_extracts]

/-- Where the text ends inside the immediate the decoder refuses. -/
theorem decodeImmediate_of_short (mov : Word32 → Instr) {bs : List Byte} (h : bs.length < 4) :
    decodeImmediate mov bs = .refused .textEnds := by
  unfold decodeImmediate
  split
  · simp at h
    omega
  · rfl

/-- Any other byte 0 is refused (30_encoding.md R164, R165). -/
theorem decodeBytes_of_other_byte {b : Byte} (bs : List Byte) (h : b ∉ ([0x0F, 0xB8, 0xB9, 0xBA] : List Byte)) :
    ∃ e, decodeBytes (b :: bs) = .refused e := by
  simp only [List.mem_cons, List.not_mem_nil, or_false, not_or] at h
  obtain ⟨hescape, heax, hecx, hedx⟩ := h
  rw [decodeBytes, if_neg hescape, if_neg heax, if_neg hecx, if_neg hedx]
  split
  · exact ⟨_, rfl⟩
  · exact ⟨_, rfl⟩

/-! The decoder and the encoder are inverse to each other, for each kind of code. -/

/-- What the byte decoder accepts is the instruction's own bytes with the rest after them, and nothing else. -/
theorem decodeBytes_ok_iff {bs rest : List Byte} {i : Instr} :
    decodeBytes bs = .ok i rest ↔ ∃ e, encode i = .bytes e ∧ bs = e ++ rest := by
  constructor
  · intro h
    cases bs with
    | nil => cases h
    | cons b tail =>
      by_cases hb : b ∈ ([0x0F, 0xB8, 0xB9, 0xBA] : List Byte)
      · simp only [List.mem_cons, List.not_mem_nil, or_false] at hb
        -- Each of the four bytes computes `decodeBytes` down to the decoder of its form.
        rcases hb with rfl | rfl | rfl | rfl
        · rcases decodeAfterEscape_ok_iff.1 h with ⟨rfl, rfl⟩ | ⟨rfl, rfl⟩ <;> exact ⟨_, rfl, rfl⟩
        -- The three forms of MOV differ in the argument of `decodeImmediate` alone.
        all_goals
          obtain ⟨n, rfl, rfl⟩ := decodeImmediate_ok_iff.1 h
          exact ⟨_, rfl, rfl⟩
      · obtain ⟨e, he⟩ := decodeBytes_of_other_byte tail hb
        rw [he] at h
        cases h
  · rintro ⟨e, he, rfl⟩
    cases i with
    | rdmsr => cases he; exact decodeAfterEscape_ok_iff.2 (.inl ⟨rfl, rfl⟩)
    | wrmsr => cases he; exact decodeAfterEscape_ok_iff.2 (.inr ⟨rfl, rfl⟩)
    | movEax n => cases he; exact decodeImmediate_ok_iff.2 ⟨n, rfl, rfl⟩
    | movEcx n => cases he; exact decodeImmediate_ok_iff.2 ⟨n, rfl, rfl⟩
    | movEdx n => cases he; exact decodeImmediate_ok_iff.2 ⟨n, rfl, rfl⟩
    | _ => cases he

/-- The instructions with a five-bit code are the L2 commands, and it is the code their completion is for. -/
theorem encode_eq_l2cmd_iff {i : Instr} {c : BitVec 5} : encode i = .l2cmd c ↔ Machine.commandCode i = some c := by
  cases i <;> simp [encode, Machine.commandCode]

/-- The decoder of both kinds of code takes a five-bit code whole. -/
theorem decode_l2cmd_ok_iff {c : BitVec 5} {i : Instr} {rest : List Byte} :
    decode (.l2cmd c) = .ok i rest ↔ decodeL2 c = some i ∧ rest = [] := by
  rw [decode]
  cases decodeL2 c <;> simp [eq_comm]

/-- The codes that decode to a command are the commands' own (30_encoding.md R170, R171). -/
theorem decodeL2_eq_some_iff {c : BitVec 5} {i : Instr} : decodeL2 c = some i ↔ encode i = .l2cmd c := by
  constructor
  · exact fun h => encode_eq_l2cmd_iff.2 (Machine.commandCode_of_decodeL2 h)
  · intro h
    cases i with
    | twr m => cases h; cases m <;> rfl
    | tww m => cases h; cases m <;> rfl
    | tw m => cases h; cases m <;> rfl
    | _ => cases h <;> rfl

/-- Settles O2: the direction from the encoder to the decoder, for each kind of code. -/
theorem decodeOfEncodeGivesTheInstruction : Obligations.DecodeOfEncodeGivesTheInstruction := by
  intro i rest
  cases hcode : encode i with
  | bytes e => exact decodeBytes_ok_iff.2 ⟨e, hcode, rfl⟩
  | l2cmd c => exact decode_l2cmd_ok_iff.2 ⟨decodeL2_eq_some_iff.2 hcode, rfl⟩

/-- Settles O3: the direction from the decoder to the encoder, for each kind of code. -/
theorem acceptedCodeIsTheEncoding : Obligations.AcceptedCodeIsTheEncoding :=
  ⟨fun _ _ _ h => decodeBytes_ok_iff.1 h, fun _ _ h => decodeL2_eq_some_iff.1 h⟩

/-- Settles O1: fourteen closed words, each evaluated. -/
theorem tableWordsDecode : Obligations.TableWordsDecode := by
  unfold Obligations.TableWordsDecode
  decide

/-- Settles O4: byte 0 alone selects the form, and the form's own lemma gives the answer. -/
theorem decoderAdmitsOnlyThreeForms : Obligations.DecoderAdmitsOnlyThreeForms := by
  refine ⟨fun b rest => rfl, fun b1 b2 b3 b4 rest => ⟨rfl, rfl, rfl⟩, fun b rest hb hshort => ?_,
    fun b rest => decodeBytes_of_other_byte rest⟩
  simp only [List.mem_cons, List.not_mem_nil, or_false] at hb
  rcases hb with rfl | rfl | rfl <;> exact decodeImmediate_of_short _ hshort

/-- Settles O5: the 32 codes, each evaluated. -/
theorem l2CommandCodesAsTabulated : Obligations.L2CommandCodesAsTabulated := by
  unfold Obligations.L2CommandCodesAsTabulated
  decide

namespace Machine

/-! The step of each agent that runs an instruction. -/

/-- The core runs the instruction at EIP (30_encoding.md R160). -/
theorem step_of_fetch {s : State} {i : Instr} {rest : List Byte} (hm : mover s = .core) (hf : fetch s = .ok i rest) :
    step s = afterNext handOver (exec i s) := by
  rw [step, hm]
  simp only [coreStep, hf]

/-- The engine runs the latched command (41_l2_commands.md R233). -/
theorem step_of_latched {s : State} {req : L2Request} {i : Instr} (hm : mover s = .l2Engine)
    (hp : s.l2Pending = some req) (hd : decodeL2 req.cmd = some i) : step s = afterNext handOver (exec i s) := by
  rw [step, hm]
  simp only [engineStep, hp, decode, hd]

/-- Settles O6: the core's step, with its answer taken apart. -/
theorem stepRunsTheDecodedInstruction : Obligations.StepRunsTheDecodedInstruction := by
  intro s i rest hm hf
  rw [step_of_fetch hm hf]
  cases exec i s <;> rfl

/-- Settles O8: the core's step where the decoder refuses. -/
theorem undecodableBytesAreRefused : Obligations.UndecodableBytesAreRefused := by
  intro s e hm hf
  have hfetch : fetch s = .refused e := hf
  rw [step, hm]
  simp only [coreStep, hfetch]

/-! A code placed is the code the next step reads. -/

/-- Placing bytes leaves every address from which they do not reach: those at least their number above the start,
counted modulo 2^32. -/
theorem textByte_placeAll_other {m : List Host.Cell} {a c : Addr} {bs : List Byte} (h : bs.length ≤ (c - a).toNat) :
    textByte? (textPlaceAll m a bs) c = textByte? m c := by
  induction bs generalizing m a with
  | nil => rfl
  | cons b bs ih =>
    rw [List.length_cons] at h
    have hne : c ≠ a := by rintro rfl; simp at h
    have hrest : bs.length ≤ (c - (a + 1)).toNat := by bv_omega
    rw [textPlaceAll, ih hrest, textByte_place_other m b hne]

/-- Bytes placed are read back, as long as they do not go once round the address space. -/
theorem bytesAt_placeAll (m : List Host.Cell) (a : Addr) {bs : List Byte} (h : bs.length ≤ 2 ^ 32) :
    bytesAt (textPlaceAll m a bs) a bs.length = bs := by
  induction bs generalizing m a with
  | nil => rfl
  | cons b bs ih =>
    rw [List.length_cons] at h
    have hround : bs.length ≤ (a - (a + 1)).toNat := by bv_omega
    have hfirst : textByte? (textPlaceAll m a (b :: bs)) a = some b := by
      rw [textPlaceAll, textByte_placeAll_other hround, textByte_place_same]
    simp only [List.length_cons, bytesAt, hfirst]
    rw [textPlaceAll, ih _ _ (by omega)]

/-- Five bytes placed at EIP are the five the core fetches. -/
theorem fetch_placeBytes {bs : List Byte} (s : State) (h : bs.length = 5) :
    fetch (placeBytes bs s) = decodeBytes bs := by
  have hread := bytesAt_placeAll s.program s.eip (bs := bs) (by omega)
  rw [h] at hread
  rw [fetch, placeBytes_program, placeBytes_eip, hread]

theorem mover_placeBytes (bs : List Byte) (s : State) : mover (placeBytes bs s) = .core := rfl

/-- A placed command sets BUSY, so that the engine's turn is the engine's. -/
theorem mover_placeCommand (c : BitVec 5) (s : State) : mover (placeCommand c s) = .l2Engine :=
  if_pos (l2Busy_latchCommand _)

/-- A placed command is the one latched. -/
theorem placeCommand_latched (c : BitVec 5) (s : State) :
    ∃ req, (placeCommand c s).l2Pending = some req ∧ req.cmd = c := by
  refine ⟨_, rfl, ?_⟩
  simp only [requestOf, getMsr_setMsr_same]
  exact extractLsb'_setField_same _ c (by decide)

/-- A byte code of an opcode-table word has the five bytes of the longest instruction. -/
theorem length_of_codeOfTableWord {nbits w : Nat} {bs : List Byte} (h : codeOfTableWord nbits w = .bytes bs) :
    bs.length = 5 := by
  simp only [codeOfTableWord] at h
  split at h
  · cases h; rfl
  · split at h <;> cases h
    rfl

/-- An opcode-table word decodes to an instruction exactly through its code. -/
theorem decodeTableWord_eq_some_iff {nbits w : Nat} {i : Instr} :
    decodeTableWord nbits w = some i ↔ ∃ rest, decode (codeOfTableWord nbits w) = .ok i rest := by
  unfold decodeTableWord
  cases decode (codeOfTableWord nbits w) <;> simp

/-- The step after a word is placed runs the word's instruction: bytes as the core's, a command as the engine's. -/
theorem step_withFetchWord {nbits w : Nat} {i : Instr} (s : State) (h : decodeTableWord nbits w = some i) :
    step (s.withFetchWord nbits w) = afterNext handOver (exec i (s.withFetchWord nbits w)) := by
  obtain ⟨rest, hdecode⟩ := decodeTableWord_eq_some_iff.1 h
  unfold State.withFetchWord
  cases hcode : codeOfTableWord nbits w with
  | bytes bs =>
    rw [hcode] at hdecode
    have hfetch : fetch (placeBytes bs s) = .ok i rest :=
      (fetch_placeBytes s (length_of_codeOfTableWord hcode)).trans hdecode
    exact step_of_fetch (mover_placeBytes bs s) hfetch
  | l2cmd c =>
    obtain ⟨req, hlatched, rfl⟩ := placeCommand_latched c s
    rw [hcode] at hdecode
    exact step_of_latched (mover_placeCommand req.cmd s) hlatched (decode_l2cmd_ok_iff.1 hdecode).1

/-- Settles O9: the step after the placing, with its answer taken apart. -/
theorem placedWordRunsNext : Obligations.PlacedWordRunsNext := by
  intro s nbits w i h
  rw [step_withFetchWord s h]
  cases exec i (s.withFetchWord nbits w) <;> rfl

end Machine

end Sys2Proof
end

section
/-! The register level of RDMSR and WRMSR, said once (40_msr_access.md): the rule of the row an address selects, what
each check of a write asks, and what an access that reaches a register answers. -/

namespace Sys2Proof.Machine

/-! The tables the statements write out, against the rows of the model. -/

/-- The addresses of Table B-1 are those of the model's rows (20_memory.md R132). -/
theorem listedAddrs_eq_rows : listedAddrs = msrTable.map MsrRow.addr := by decide

theorem msrRow_eq_none_iff {a : Addr} : msrRow? a = none ↔ a ∉ listedAddrs := by
  rw [listedAddrs_eq_rows]
  simp [msrRow?]

/-- The group of a row by its address (40_msr_access.md Table R193). -/
theorem group_of_row : ∀ r ∈ msrTable, r.group =
    if r.addr = 0x10 then .everyModel
    else if r.addr = 0x0 ∨ r.addr = 0x1 then .pentiumQuiet
    else if r.addr = 0x11 ∨ r.addr = 0x12 ∨ r.addr = 0x13 then .pentiumLoud
    else if r.addr ∈ notImplementedAddrs then .p6Absent
    else .p6Family := by decide

theorem busyLocked_iff {a : Addr} : busyLocked a = true ↔ a ∈ lockedAddrs := by
  simp [busyLocked, lockedAddrs, or_assoc]

theorem writeLocked_iff {a : Addr} : writeLocked a = true ↔ a ∈ writeLockedAddrs := by
  simp [writeLocked, busyLocked_iff, writeLockedAddrs]

/-- The rule of the register an address selects, where that register holds a value. -/
def heldRule? (a : Addr) : Option WriteRule := ((msrRow? a).filter holdsValue).map MsrRow.rule

theorem heldRule_eq_some_iff {a : Addr} {w : WriteRule} :
    heldRule? a = some w ↔ ∃ r, msrRow? a = some r ∧ holdsValue r = true ∧ r.rule = w := by
  simp [heldRule?, and_assoc]

/-- A register of Table R212 has the table's masks. -/
theorem heldRule_of_maskRow : ∀ m ∈ maskRows, heldRule? m.addr = some (.masked ⟨m.rw, m.ro, m.rsv⟩) := by
  have hall : (maskRows.all fun m => heldRule? m.addr == some (.masked ⟨m.rw, m.ro, m.rsv⟩)) = true := by decide
  simpa using hall

theorem heldRule_of_nameOnly : ∀ a ∈ nameOnlyAddrs, heldRule? a = some (.legal 0) := by
  have hall : (nameOnlyAddrs.all fun a => heldRule? a == some (.legal 0)) = true := by decide
  simpa using hall

theorem heldRule_of_mcStatus : ∀ a ∈ mcStatusAddrs, heldRule? a = some (.legal 0x01FFFFFF00000000) := by
  have hall : (mcStatusAddrs.all fun a => heldRule? a == some (.legal 0x01FFFFFF00000000)) = true := by decide
  simpa using hall

theorem heldRule_bblAddr : heldRule? addrBblAddr = some (.masked ⟨0xFFFFFFF8, 0, 0xFFFFFFFF00000007⟩) := by decide

/-- BBL_CR_ADDR, whose rule is its own, is no row of `maskRows`. -/
theorem maskRow_ne_bblAddr : ∀ m ∈ maskRows, m.addr ≠ addrBblAddr := by decide

/-- A register without a field table has none of the checks by address (40_msr_access.md R203, R206, R208, R209). -/
theorem no_own_check_of_legal : ∀ a ∈ nameOnlyAddrs ++ mcStatusAddrs,
    a ≠ addrApicBase ∧ a ≠ addrBblAddr ∧ a ≠ addrBblCtl3 ∧ a ∉ writeLockedAddrs := by
  have hall : ((nameOnlyAddrs ++ mcStatusAddrs).all fun a =>
      a != addrApicBase && a != addrBblAddr && a != addrBblCtl3 && !writeLockedAddrs.contains a) = true := by decide
  intro a ha
  simpa [and_assoc] using List.all_eq_true.1 hall a ha

/-! RDMSR. -/

/-- An access that reaches a register reads it as a present one. -/
theorem readMsr_of_access {a : Addr} {s : State} (h : accesses s a) : readMsr s.ecx s = readPresent a s := by
  obtain ⟨_, rfl, hp⟩ := h
  simp only [readMsr, hp]

/-- Past BBL_CR_TRIG, BIOS_UPDT_TRIG and the lock, a read is of the held value (40_msr_access.md R198). -/
theorem readPresent_held {a : Addr} {s : State} (htrig : a ≠ addrBblTrig) (hbios : a ≠ addrBiosUpdtTrig)
    (hlock : a ∈ lockedAddrs → ¬commandInProgress s) : readPresent a s = .value (s.getMsr a) s := by
  have hfree : (busyLocked a && l2Busy s) = false := by
    rw [Bool.and_eq_false_imp, busyLocked_iff]
    exact fun ha => Bool.eq_false_of_not_eq_true (hlock ha)
  rw [readPresent, if_neg htrig, if_neg hbios, hfree]
  rfl

/-- While a command is in progress a locked register is not read (40_msr_access.md R209). -/
theorem readPresent_locked {a : Addr} {s : State} (htrig : a ≠ addrBblTrig) (hbios : a ≠ addrBiosUpdtTrig)
    (ha : a ∈ lockedAddrs) (hb : commandInProgress s) : readPresent a s = .stop (.refuse (.l2Busy a)) := by
  rw [readPresent, if_neg htrig, if_neg hbios, busyLocked_iff.2 ha, (commandInProgress_iff s).1 hb]
  rfl

theorem exec_rdmsr_of_value {s : State} {v : Word64} (hcpl : s.cpl = 0) (h : readMsr s.ecx s = .value v s) :
    exec .rdmsr s = .next (afterRead s v) := by
  simp only [exec, execRdmsr, msrAddress, hcpl, h, ne_eq, not_true_eq_false, if_false]
  rfl

theorem exec_rdmsr_of_draw {s : State} (hcpl : s.cpl = 0) (h : readMsr s.ecx s = readDraw s) :
    exec .rdmsr s = .next { afterRead s (Config.draw64 s.draws) with draws := s.draws + 1 } := by
  simp only [exec, execRdmsr, msrAddress, hcpl, h, ne_eq, not_true_eq_false, if_false]
  rfl

theorem exec_rdmsr_of_stop {s : State} {st : Stop} (hcpl : s.cpl = 0) (h : readMsr s.ecx s = .stop st) :
    exec .rdmsr s = answerStop st := by
  simp only [exec, execRdmsr, msrAddress, hcpl, h, ne_eq, not_true_eq_false, if_false]

/-! WRMSR. -/

/-- At CPL 0 a WRMSR is the write of EDX:EAX at the register level, with EIP moved past it. -/
theorem exec_wrmsr_of_cpl {s : State} (hcpl : s.cpl = 0) :
    exec .wrmsr s = afterNext (advance 2) (writeMsr s.ecx (writeDatum s) s) :=
  if_neg (not_not_intro hcpl)

theorem exec_wrmsr_of_access {s : State} {a : Addr} (h : accesses s a) :
    exec .wrmsr s = afterNext (advance 2) (writePresent a (writeDatum s) s) := by
  obtain ⟨hcpl, rfl, hp⟩ := h
  rw [exec_wrmsr_of_cpl hcpl]
  simp only [writeMsr, hp]

/-- A register that holds a value is written past the checks of its rule. -/
theorem writePresent_of_heldRule {a : Addr} {w : WriteRule} {v : Word64} {s : State} (hw : heldRule? a = some w) :
    writePresent a v s = writeHeld a w v s := by
  obtain ⟨r, hrow, hv, rfl⟩ := heldRule_eq_some_iff.1 hw
  rcases (holdsValue_iff r).1 hv with ⟨m, hm⟩ | ⟨rsv, hm⟩ <;> simp only [writePresent, hrow, hm]

/-! The checks of a write, each for itself. -/

@[simp] theorem firstStop_none_cons (l : List (Option Stop)) : firstStop (none :: l) = firstStop l := rfl

@[simp] theorem firstStop_some_cons (st : Stop) (l : List (Option Stop)) : firstStop (some st :: l) = some st := rfl

/-- A policy stops no datum that passes it, and every other (40_msr_access.md R199, R200). -/
theorem policyCheck_differOn_none_iff {p : WritePolicy} {mask held v : Word64} {r : Refusal} :
    policyCheck p (differOn mask held v) r = none ↔ passes p mask held v := by
  rw [policyCheck_none_iff, passes, ← differOn_false_iff, or_iff_not_imp_right, Bool.not_eq_false]

/-- What a policy answers to a datum that differs (40_msr_access.md R199, R200). -/
theorem policyCheck_of_differs {p : WritePolicy} {mask held v : Word64} {r : Refusal}
    (h : (held ^^^ v) &&& mask ≠ 0) :
    (p = .preserve → policyCheck p (differOn mask held v) r = some (.refuse r)) ∧
    (p = .fault → policyCheck p (differOn mask held v) r = some (.fault .gp0)) := by
  have hd : differOn mask held v = true := by simpa [differOn] using h
  rw [hd]
  constructor <;> rintro rfl <;> rfl

@[simp] theorem legalCheck_masked (p : Params) (a : Addr) (m : Masks) (v : Word64) :
    legalCheck p a (.masked m) v = none := rfl

theorem legalCheck_none_iff {p : Params} {a : Addr} {w : WriteRule} {v : Word64} :
    legalCheck p a w v = none ↔ ((∃ rsv, w = .legal rsv) → legalValue p a v = true) := by
  cases w <;> simp [legalCheck]

theorem apicCheck_none_iff {a : Addr} {held v : Word64} :
    apicCheck a held v = none ↔ (a = 0x1B → held.getLsbD 11 = true ∨ v.getLsbD 11 = false) := by
  simp [apicCheck, apicEnabled, or_iff_not_imp_left]

theorem addrCheck_none_iff {a : Addr} {v : Word64} :
    addrCheck a v = none ↔ (a = 0x116 → v.extractLsb' 0 3 = 0) := by
  simp [addrCheck]

/-- The listed cache size codes (40_msr_access.md R208). -/
theorem cacheSizeBytes_none_iff :
    ∀ c : BitVec 5, cacheSizeBytes? c = none ↔ c ∉ ([1, 2, 4, 8, 16] : List (BitVec 5)) := by decide

theorem sizeCheck_none_iff {a : Addr} {v : Word64} :
    sizeCheck a v = none ↔ (a = 0x11E → v.extractLsb' 13 5 ∈ ([1, 2, 4, 8, 16] : List (BitVec 5))) := by
  simp only [sizeCheck, cacheSizeBytes_none_iff, ite_eq_right_iff, reduceCtorEq, imp_false, not_and, not_not]

theorem busyCheck_none_iff {a : Addr} {s : State} :
    busyCheck a s = none ↔ (a ∈ writeLockedAddrs → ¬commandInProgress s) := by
  simp [busyCheck, writeLocked_iff, commandInProgress_iff]

/-! A WRMSR to a register that holds a value. -/

/-- The checks after the two policies, in the order of R211. -/
def ownChecks (a : Addr) (w : WriteRule) (v : Word64) (s : State) : List (Option Stop) :=
  [legalCheck s.params a w v, apicCheck a (s.getMsr a) v, addrCheck a v, sizeCheck a v, busyCheck a s]

/-- Past the policies the first stop is that of the register's own checks. -/
theorem firstStop_past_policies {a : Addr} {w : WriteRule} {v : Word64} {s : State}
    (hrsv : passes s.params.reservedWrite (checkedReserved a (writeMasks w)) (s.getMsr a) v)
    (hro : passes s.params.readOnlyWrite (writeMasks w).ro (s.getMsr a) v) :
    firstStop (writeChecks a w v s) = firstStop (ownChecks a w v s) := by
  simp only [writeChecks, reservedCheck, readOnlyCheck, policyCheck_differOn_none_iff.2 hrsv,
    policyCheck_differOn_none_iff.2 hro, firstStop_none_cons]
  rfl

/-- What a WRMSR's datum must meet to be stored (40_msr_access.md R199 to R211). -/
structure Admitted (s : State) (a : Addr) (w : WriteRule) : Prop where
  reserved : passes s.params.reservedWrite (checkedReserved a (writeMasks w)) (s.getMsr a) (writeDatum s)
  readOnly : passes s.params.readOnlyWrite (writeMasks w).ro (s.getMsr a) (writeDatum s)
  legal    : (∃ rsv, w = .legal rsv) → legalValue s.params a (writeDatum s) = true
  apic     : a = 0x1B → (s.getMsr 0x1B).getLsbD 11 = true ∨ (writeDatum s).getLsbD 11 = false
  lowBits  : a = 0x116 → (writeDatum s).extractLsb' 0 3 = 0
  size     : a = 0x11E → (writeDatum s).extractLsb' 13 5 ∈ ([1, 2, 4, 8, 16] : List (BitVec 5))
  free     : a ∈ writeLockedAddrs → ¬commandInProgress s

/-- A datum is admitted exactly where no check stops it. -/
theorem admitted_iff {s : State} {a : Addr} {w : WriteRule} :
    Admitted s a w ↔ firstStop (writeChecks a w (writeDatum s) s) = none := by
  have happic : (a = 0x1B → (s.getMsr 0x1B).getLsbD 11 = true ∨ (writeDatum s).getLsbD 11 = false) ↔
      (a = 0x1B → (s.getMsr a).getLsbD 11 = true ∨ (writeDatum s).getLsbD 11 = false) :=
    forall_congr' fun h => by rw [h]
  simp only [firstStop_none_iff, writeChecks, List.forall_mem_cons, reservedCheck, readOnlyCheck,
    policyCheck_differOn_none_iff, legalCheck_none_iff, apicCheck_none_iff, addrCheck_none_iff, sizeCheck_none_iff,
    busyCheck_none_iff, ← happic]
  constructor
  · rintro ⟨h1, h2, h3, h4, h5, h6, h7⟩
    exact ⟨h1, h2, h3, h4, h5, h6, h7, by simp⟩
  · rintro ⟨h1, h2, h3, h4, h5, h6, h7, _⟩
    exact ⟨h1, h2, h3, h4, h5, h6, h7⟩

section
variable {s : State} {a : Addr} {w : WriteRule} (hacc : accesses s a) (hw : heldRule? a = some w)
include hacc hw

/-- A check that stops the datum is the answer. -/
theorem exec_wrmsr_of_stop {st : Stop} (hst : firstStop (writeChecks a w (writeDatum s) s) = some st) :
    exec .wrmsr s = answerStop st := by
  rw [exec_wrmsr_of_access hacc, writePresent_of_heldRule hw]
  simp only [writeHeld, hst]
  cases st <;> rfl

/-- An admitted datum is stored by the formula of the register (40_msr_access.md R202, R206). -/
theorem exec_wrmsr_of_admitted (h : Admitted s a w) :
    exec .wrmsr s = .next (afterWrite s a (writtenValue a (writeMasks w) (s.getMsr a) (writeDatum s))) := by
  rw [exec_wrmsr_of_access hacc, writePresent_of_heldRule hw]
  simp only [writeHeld, admitted_iff.1 h]
  rfl

/-- A WRMSR completes exactly where its datum is admitted, and then in one state. -/
theorem exec_wrmsr_next_iff {t : State} : exec .wrmsr s = .next t ↔
    Admitted s a w ∧ t = afterWrite s a (writtenValue a (writeMasks w) (s.getMsr a) (writeDatum s)) := by
  constructor
  · intro h
    have hadm : Admitted s a w := by
      refine admitted_iff.2 (Option.eq_none_iff_forall_ne_some.2 fun st hst => ?_)
      rw [exec_wrmsr_of_stop hacc hw hst] at h
      exact answerStop_ne_next st t h
    rw [exec_wrmsr_of_admitted hacc hw hadm] at h
    cases h
    exact ⟨hadm, rfl⟩
  · rintro ⟨hadm, rfl⟩
    exact exec_wrmsr_of_admitted hacc hw hadm

/-- The reserved bits are checked first (40_msr_access.md R199, R211). -/
theorem exec_wrmsr_of_reserved_differ
    (h : (s.getMsr a ^^^ writeDatum s) &&& checkedReserved a (writeMasks w) ≠ 0) :
    (s.params.reservedWrite = .preserve → exec .wrmsr s = .refused (.reservedBits a)) ∧
    (s.params.reservedWrite = .fault → exec .wrmsr s = .fault .gp0) := by
  have stops {st : Stop} (hst : reservedCheck s.params a (writeMasks w) (s.getMsr a) (writeDatum s) = some st) :
      exec .wrmsr s = answerStop st :=
    exec_wrmsr_of_stop hacc hw (by rw [writeChecks, hst, firstStop_some_cons])
  obtain ⟨hpreserve, hfault⟩ := policyCheck_of_differs (r := .reservedBits a) h
  exact ⟨fun hp => stops (hpreserve hp), fun hp => stops (hfault hp)⟩

/-- The read-only bits are checked next (40_msr_access.md R200, R211). -/
theorem exec_wrmsr_of_readOnly_differ
    (hrsv : passes s.params.reservedWrite (checkedReserved a (writeMasks w)) (s.getMsr a) (writeDatum s))
    (h : (s.getMsr a ^^^ writeDatum s) &&& (writeMasks w).ro ≠ 0) :
    (s.params.readOnlyWrite = .preserve → exec .wrmsr s = .refused (.readOnlyBits a)) ∧
    (s.params.readOnlyWrite = .fault → exec .wrmsr s = .fault .gp0) := by
  have stops {st : Stop} (hst : readOnlyCheck s.params a (writeMasks w) (s.getMsr a) (writeDatum s) = some st) :
      exec .wrmsr s = answerStop st := by
    refine exec_wrmsr_of_stop hacc hw ?_
    rw [writeChecks, hst, reservedCheck, policyCheck_differOn_none_iff.2 hrsv, firstStop_none_cons, firstStop_some_cons]
  obtain ⟨hpreserve, hfault⟩ := policyCheck_of_differs (r := .readOnlyBits a) h
  exact ⟨fun hp => stops (hpreserve hp), fun hp => stops (hfault hp)⟩

/-- Past the policies the register's own checks decide. -/
theorem exec_wrmsr_of_own_stop {st : Stop}
    (hrsv : passes s.params.reservedWrite (checkedReserved a (writeMasks w)) (s.getMsr a) (writeDatum s))
    (hro : passes s.params.readOnlyWrite (writeMasks w).ro (s.getMsr a) (writeDatum s))
    (hst : firstStop (ownChecks a w (writeDatum s) s) = some st) : exec .wrmsr s = answerStop st :=
  exec_wrmsr_of_stop hacc hw ((firstStop_past_policies hrsv hro).trans hst)

end

/-! The masks of the checks and the values a write leaves. -/

theorem checkedReserved_of_ne {a : Addr} (m : Masks) (h : a ≠ addrBblAddr) : checkedReserved a m = m.rsv := if_neg h

theorem writtenValue_of_ne {a : Addr} (m : Masks) (held v : Word64) (h : a ≠ addrBblAddr) :
    writtenValue a m held v = (held &&& ~~~m.rw) ||| (v &&& m.rw) := if_neg h

theorem checkedReserved_maskRow {m : MaskRow} (hm : m ∈ maskRows) :
    checkedReserved m.addr (writeMasks (.masked ⟨m.rw, m.ro, m.rsv⟩)) = m.rsv :=
  checkedReserved_of_ne _ (maskRow_ne_bblAddr m hm)

theorem writtenValue_maskRow {m : MaskRow} (hm : m ∈ maskRows) (held v : Word64) :
    writtenValue m.addr (writeMasks (.masked ⟨m.rw, m.ro, m.rsv⟩)) held v = (held &&& ~~~m.rw) ||| (v &&& m.rw) :=
  writtenValue_of_ne _ held v (maskRow_ne_bblAddr m hm)

/-- A datum passes a mask without bits. -/
theorem passes_zero_mask (p : WritePolicy) (held v : Word64) : passes p 0 held v := .inr BitVec.and_zero

/-- Bit k of a value merged by a mask. -/
theorem getLsbD_merge (m held v : Word64) (k : Nat) :
    ((held &&& ~~~m) ||| (v &&& m)).getLsbD k = if m.getLsbD k then v.getLsbD k else held.getLsbD k := by
  have hheld : held.getLsbD k = true → k < 64 := BitVec.lt_of_getLsbD
  simp only [BitVec.getLsbD_or, BitVec.getLsbD_and, BitVec.getLsbD_not]
  cases m.getLsbD k with
  | false => simpa using hheld
  | true => simp

/-- A merge by a mask without bits takes nothing. -/
theorem merge_zero_mask (held v : Word64) : (held &&& ~~~0) ||| (v &&& 0) = held := by
  refine BitVec.eq_of_getLsbD_eq fun k _ => ?_
  rw [getLsbD_merge]
  simp

/-- Setting bit 0 is the union with 1 (41_l2_commands.md R232). -/
theorem setField_bit_zero_true (v : Word64) : setField v 0 (bitOf true) = v ||| 1 := by
  refine BitVec.eq_of_getLsbD_eq fun k _ => ?_
  rw [getLsbD_setField v (bitOf true) (by decide), BitVec.getLsbD_or]
  cases k with
  | zero => simp [bitOf]
  | succ k => simp [BitVec.getLsbD_one]

end Sys2Proof.Machine
end

section
/-! The statements of 40_msr_access.md: the class of every access, RDMSR, and WRMSR register by register. -/

namespace Sys2Proof.Machine

/-! Privilege and availability. -/

/-- Settles O11: both instructions check the privilege level before anything else. -/
theorem msrAccessNeedsPrivilegeZero : Obligations.MsrAccessNeedsPrivilegeZero :=
  fun _ hcpl => ⟨if_pos hcpl, if_pos hcpl⟩

/-- Settles O12: an address without a row is unlisted, and a row's address gives its group. -/
theorem availabilityOfEveryAddress : Obligations.AvailabilityOfEveryAddress := by
  intro p a
  cases hrow : msrRow? a with
  | none =>
    rw [if_pos (msrRow_eq_none_iff.1 hrow), avail, hrow]
  | some r =>
    have hlisted : ¬ a ∉ listedAddrs := fun h => by simp [msrRow_eq_none_iff.2 h] at hrow
    obtain ⟨hr, rfl⟩ := msrRow_spec hrow
    have hgroup := group_of_row r hr
    rw [if_neg hlisted, avail_of_row hrow]
    split_ifs at hgroup with hevery hquiet hloud habsent
    · rw [hgroup, if_pos hevery, availOfGroup]
    · rw [hgroup, if_neg hevery, if_pos hquiet, availOfGroup]
    · rw [hgroup, if_neg hevery, if_neg hquiet, if_pos hloud, availOfGroup]
    · rw [hgroup, if_neg hevery, if_neg hquiet, if_neg hloud, if_pos habsent, availOfGroup, ite_or]
    · rw [hgroup, if_neg hevery, if_neg hquiet, if_neg hloud, if_neg habsent, availOfGroup, ite_or]

/-- Settles O13: each class of access has its own arm of the register level. -/
theorem rdmsrWithoutARegister : Obligations.RdmsrWithoutARegister := by
  intro s hcpl
  refine ⟨fun h => ?_, fun h => ?_, fun h => ?_, fun h => ?_, fun h => ?_⟩
  · exact exec_rdmsr_of_stop (st := .refuse (.unlistedMsr _)) hcpl (by simp only [readMsr, h])
  · exact exec_rdmsr_of_stop (st := .refuse (.notEstablished _)) hcpl (by simp only [readMsr, h])
  · exact exec_rdmsr_of_stop (st := .fault .gp0) hcpl (by simp only [readMsr, h])
  · exact exec_rdmsr_of_draw hcpl (by simp only [readMsr, h])
  · cases hpolicy : notImplPolicy s.params .read s.ecx with
    | refuse =>
      exact exec_rdmsr_of_stop (st := .refuse (.notImplemented _)) hcpl (by simp only [readMsr, h, hpolicy])
    | fault => exact exec_rdmsr_of_stop (st := .fault .gp0) hcpl (by simp only [readMsr, h, hpolicy])
    | silent => exact exec_rdmsr_of_draw hcpl (by simp only [readMsr, h, hpolicy])

/-- Settles O14: as for RDMSR, where a silent write leaves the state to EIP's advance. -/
theorem wrmsrWithoutARegister : Obligations.WrmsrWithoutARegister := by
  intro s hcpl
  rw [exec_wrmsr_of_cpl hcpl]
  refine ⟨fun h => ?_, fun h => ?_, fun h => ?_, fun h => ?_, fun h => ?_⟩
  · simp only [writeMsr, h, afterNext]
  · simp only [writeMsr, h, afterNext]
  · simp only [writeMsr, h, raiseGP_eq, afterNext]
  · simp only [writeMsr, h, afterNext, advance]
  · cases hpolicy : notImplPolicy s.params .write s.ecx <;>
      simp only [writeMsr, h, hpolicy, raiseGP_eq, afterNext, advance]

/-! RDMSR of a present register. -/

/-- RDMSR of a register a read reaches completes with its held value (40_msr_access.md R190, R198). -/
theorem exec_rdmsr_held {s : State} {a : Addr} (hacc : accesses s a) (htrig : a ≠ 0x11A) (hbios : a ≠ 0x79)
    (hlock : a ∈ lockedAddrs → ¬commandInProgress s) : exec .rdmsr s = .next (afterRead s (s.getMsr a)) :=
  exec_rdmsr_of_value hacc.1 ((readMsr_of_access hacc).trans (readPresent_held htrig hbios hlock))

/-- Settles O16: the held value, as `exec_rdmsr_held` says it. -/
theorem rdmsrReturnsTheHeldValue : Obligations.RdmsrReturnsTheHeldValue :=
  fun _ _ hacc htrig hbios hlock => exec_rdmsr_held hacc htrig hbios hlock

/-- The registers R198 names as locked to reads are the nine of R209 but BBL_CR_TRIG. -/
theorem mem_lockedAddrs_iff {a : Addr} :
    a ∈ lockedAddrs ↔ a = 0x11A ∨ a ∈ ([0x88, 0x89, 0x8A, 0x8B, 0x116, 0x118, 0x119, 0x11E] : List Addr) := by
  simp only [lockedAddrs, List.mem_cons, List.not_mem_nil, or_false]
  tauto

/-- Settles O17: the three exceptions are the first three branches of `readPresent`, the held value its last. -/
theorem readValueOfAPresentRegister : Obligations.ReadValueOfAPresentRegister := by
  intro s a hacc
  have hcpl := hacc.1
  have hread := readMsr_of_access hacc
  have hother (ha : a ∈ ([0x88, 0x89, 0x8A, 0x8B, 0x116, 0x118, 0x119, 0x11E] : List Addr)) :
      a ≠ 0x11A ∧ a ≠ 0x79 := by
    constructor <;> rintro rfl <;> revert ha <;> decide
  refine ⟨fun ha => ?_, fun ha => ?_, fun ha hb => ?_, fun ha => ?_⟩
  · exact exec_rdmsr_of_stop (st := .refuse (.writeOnlyMsr a)) hcpl (hread.trans (if_pos ha))
  · refine exec_rdmsr_of_draw hcpl (hread.trans ?_)
    rw [readPresent, if_neg (by rw [ha]; decide), if_pos ha]
  · obtain ⟨htrig, hbios⟩ := hother ha
    exact exec_rdmsr_of_stop (st := .refuse (.l2Busy a)) hcpl
      (hread.trans (readPresent_locked htrig hbios (mem_lockedAddrs_iff.2 (.inr ha)) hb))
  · rcases ha with ha | ⟨ha, hb⟩
    · rw [List.mem_cons, List.mem_cons, not_or, not_or] at ha
      obtain ⟨htrig, hbios, hfree⟩ := ha
      exact exec_rdmsr_held hacc htrig hbios fun hl => absurd (mem_lockedAddrs_iff.1 hl) (not_or.2 ⟨htrig, hfree⟩)
    · obtain ⟨htrig, hbios⟩ := hother ha
      exact exec_rdmsr_held hacc htrig hbios fun _ => hb

/-- Settles O18: the value read is loaded into the state as it was, or as it is after a draw. -/
theorem rdmsrFrame : Obligations.RdmsrFrame := by
  intro s t h
  obtain ⟨_, v, u, hread, rfl⟩ := execRdmsr_next h
  rcases readMsr_value hread with ⟨_, _, _, _, _, rfl⟩ | ⟨_, _, rfl⟩
  · exact ⟨rfl, .inl rfl, fun _ => rfl⟩
  · exact ⟨rfl, .inr rfl, fun _ => rfl⟩

/-! BIOS_UPDT_TRIG and BBL_CR_TRIG, which hold no value. -/

theorem writePresent_biosUpdtTrig (v : Word64) (s : State) :
    writePresent addrBiosUpdtTrig v s = .refused .biosUpdate := by
  obtain ⟨r, hrow, hrule⟩ := Option.map_eq_some_iff.1 row_biosUpdtTrig
  simp only [writePresent, hrow, hrule]

theorem writePresent_bblTrig (v : Word64) (s : State) : writePresent addrBblTrig v s = triggerL2 v s := by
  obtain ⟨r, hrow, hrule⟩ := Option.map_eq_some_iff.1 row_bblTrig
  simp only [writePresent, hrow, hrule]

/-- Settles O32: the read is R198's exception, the write R205's refusal. -/
theorem biosUpdateTriggerHoldsNoValue : Obligations.BiosUpdateTriggerHoldsNoValue := by
  intro s hacc
  obtain ⟨_, hdraw, _⟩ := readValueOfAPresentRegister s 0x79 hacc
  refine ⟨hdraw rfl, ?_⟩
  rw [exec_wrmsr_of_access hacc, writePresent_biosUpdtTrig]
  rfl

/-- Settles O29: the three refusals and the latch are the branches of `triggerL2`. -/
theorem wrmsrTriggerLatchesTheCommand : Obligations.WrmsrTriggerLatchesTheCommand := by
  intro s hacc
  rw [exec_wrmsr_of_access hacc, writePresent_bblTrig]
  have hcmd : (requestOf s).cmd = (s.getMsr 0x119).extractLsb' 0 5 := rfl
  simp only [commandInProgress_iff, ← hcmd]
  refine ⟨fun hv => ?_, fun hv hb => ?_, fun hv hb hd => ?_, fun hv hb hd => ?_⟩
  · rw [triggerL2, if_pos hv]
    rfl
  · rw [triggerL2, if_neg (not_not_intro hv), if_pos hb]
    rfl
  · rw [triggerL2, if_neg (not_not_intro hv), if_neg hb, if_pos hd]
    rfl
  · rw [triggerL2, if_neg (not_not_intro hv), if_neg hb, if_neg hd]
    have hbusy : busyMsr true s.msr = msrSet s.msr 0x11B (s.getMsr 0x11B ||| 1) := by
      rw [busyMsr, setField_bit_zero_true]
      rfl
    rw [latchCommand, hbusy]
    rfl

/-! The registers of Table R212. -/

/-- Settles O19: the statement's premises are the admission of the datum. -/
theorem wrmsrStoresTheWritableBits : Obligations.WrmsrStoresTheWritableBits := by
  intro s m hm hacc hrsv hro hfree hapic hsize
  have hadm : Admitted s m.addr (.masked ⟨m.rw, m.ro, m.rsv⟩) := {
    reserved := by rwa [checkedReserved_maskRow hm]
    readOnly := hro
    legal := by simp
    apic := hapic
    lowBits := fun ha => absurd ha (maskRow_ne_bblAddr m hm)
    size := hsize
    free := hfree }
  rw [exec_wrmsr_of_admitted hacc (heldRule_of_maskRow m hm) hadm, writtenValue_maskRow hm]

/-- Settles O20: the check of the reserved bits comes before every other. -/
theorem wrmsrReservedBitsPolicy : Obligations.WrmsrReservedBitsPolicy := by
  intro s m hm hacc hdiffer
  exact exec_wrmsr_of_reserved_differ hacc (heldRule_of_maskRow m hm) (by rwa [checkedReserved_maskRow hm])

/-- Settles O21: past the reserved bits the check of the read-only bits comes next. -/
theorem wrmsrReadOnlyBitsPolicy : Obligations.WrmsrReadOnlyBitsPolicy := by
  intro s m hm hacc hrsv hdiffer
  exact exec_wrmsr_of_readOnly_differ hacc (heldRule_of_maskRow m hm) (by rwa [checkedReserved_maskRow hm]) hdiffer

/-- Past the policies a register of Table R212 is refused by its own checks. -/
theorem exec_wrmsr_maskRow_own_stop {s : State} {m : MaskRow} {st : Stop} (hm : m ∈ maskRows)
    (hacc : accesses s m.addr)
    (hrsv : passes s.params.reservedWrite m.rsv (s.getMsr m.addr) (writeDatum s))
    (hro : passes s.params.readOnlyWrite m.ro (s.getMsr m.addr) (writeDatum s))
    (hst : firstStop (ownChecks m.addr (.masked ⟨m.rw, m.ro, m.rsv⟩) (writeDatum s) s) = some st) :
    exec .wrmsr s = answerStop st := by
  exact exec_wrmsr_of_own_stop hacc (heldRule_of_maskRow m hm) (by rwa [checkedReserved_maskRow hm]) hro hst

/-- APICBASE's row of Table R212. -/
def maskRowApicBase : MaskRow := ⟨0x1B, 0x00000000FFFFF800, 0x0000000000000100, 0xFFFFFFFF000006FF⟩

/-- BBL_CR_CTL's row of Table R212. -/
def maskRowBblCtl : MaskRow := ⟨0x119, 0x000000000004037F, 0x0000000000013C00, 0xFFFFFFFFFFFAC080⟩

/-- BBL_CR_CTL3's row of Table R212. -/
def maskRowBblCtl3 : MaskRow := ⟨0x11E, 0x000000000077E1FF, 0x0000000002801E00, 0xFFFFFFFFFD080000⟩

theorem maskRowApicBase_mem : maskRowApicBase ∈ maskRows := by simp [maskRows, maskRowApicBase]

theorem maskRowBblCtl_mem : maskRowBblCtl ∈ maskRows := by simp [maskRows, maskRowBblCtl]

theorem maskRowBblCtl3_mem : maskRowBblCtl3 ∈ maskRows := by simp [maskRows, maskRowBblCtl3]

/-- Settles O24: a set of the cleared enable is the first of APICBASE's own checks to fail; any other datum past the
policies is stored, and bit 11 is writable. -/
theorem wrmsrOfApicBaseIsSticky : Obligations.WrmsrOfApicBaseIsSticky := by
  intro s hacc hrsv hro
  split_ifs with hset
  · refine exec_wrmsr_maskRow_own_stop maskRowApicBase_mem hacc hrsv hro (st := .refuse .apicReenable) ?_
    have hapic : apicCheck 0x1B (s.getMsr 0x1B) (writeDatum s) = some (.refuse .apicReenable) := if_pos ⟨rfl, hset⟩
    simp only [ownChecks, maskRowApicBase, legalCheck_masked, hapic, firstStop_none_cons, firstStop_some_cons]
  · refine ⟨_, wrmsrStoresTheWritableBits s maskRowApicBase maskRowApicBase_mem hacc hrsv hro
      (fun ha => absurd ha (by decide)) (fun _ => ?_) (fun ha => absurd ha (by decide)), ?_⟩
    · simpa [or_iff_not_imp_left] using hset
    · rw [afterWrite, State.getMsr]
      simp only [maskRowApicBase, msrGet_set_same, getLsbD_merge]
      rfl

/-- The writable bits of BBL_CR_CTL (40_msr_access.md R207). -/
theorem bblCtl_writable_iff (k : Nat) :
    (0x4037F : Word64).getLsbD k = true ↔ k ∈ [0, 1, 2, 3, 4, 5, 6, 8, 9, 18] := by
  rcases Nat.lt_or_ge k 64 with hk | hk
  · have hall : ∀ k < 64, (0x4037F : Word64).getLsbD k = true ↔ k ∈ [0, 1, 2, 3, 4, 5, 6, 8, 9, 18] := by decide
    exact hall k hk
  · rw [BitVec.getLsbD_of_ge _ k hk]
    simp only [List.mem_cons, List.not_mem_nil, or_false, Bool.false_eq_true, false_iff]
    omega

/-- Settles O26: the value Table R212 gives, bit by bit, and R200 for the response bits. -/
theorem wrmsrOfBblCtl : Obligations.WrmsrOfBblCtl := by
  intro s hacc hfree hrsv
  refine ⟨fun hro => ⟨_, wrmsrStoresTheWritableBits s maskRowBblCtl maskRowBblCtl_mem hacc hrsv hro (fun _ => hfree)
      (fun ha => absurd ha (by decide)) (fun ha => absurd ha (by decide)), fun k => ?_⟩,
    wrmsrReadOnlyBitsPolicy s maskRowBblCtl maskRowBblCtl_mem hacc hrsv⟩
  simp only [maskRowBblCtl, getLsbD_merge, bblCtl_writable_iff]

/-- Settles O27: of BBL_CR_CTL3's own checks the cache size code is the first that can fail. -/
theorem wrmsrOfBblCtl3NeedsAListedSize : Obligations.WrmsrOfBblCtl3NeedsAListedSize := by
  intro s hacc hrsv hro hsize
  refine exec_wrmsr_maskRow_own_stop maskRowBblCtl3_mem hacc hrsv hro (st := .refuse (.cacheSizeCode _)) ?_
  have hcheck : sizeCheck 0x11E (writeDatum s) = some (.refuse (.cacheSizeCode ((writeDatum s).extractLsb' 13 5))) :=
    if_pos ⟨rfl, (cacheSizeBytes_none_iff _).2 hsize⟩
  have hapic : apicCheck 0x11E (s.getMsr 0x11E) (writeDatum s) = none :=
    apicCheck_none_iff.2 fun ha => absurd ha (by decide)
  have haddr : addrCheck 0x11E (writeDatum s) = none := addrCheck_none_iff.2 fun ha => absurd ha (by decide)
  simp only [ownChecks, maskRowBblCtl3, legalCheck_masked, hapic, haddr, hcheck, firstStop_none_cons,
    firstStop_some_cons]

/-! BBL_CR_ADDR. -/

/-- Settles O25: bits 63:32 by the policy, then bits 2:0, then the formula of R206. -/
theorem wrmsrOfBblAddr : Obligations.WrmsrOfBblAddr := by
  intro s hacc hfree
  refine ⟨fun hrsv => ?_, exec_wrmsr_of_reserved_differ hacc heldRule_bblAddr⟩
  have hro : passes s.params.readOnlyWrite 0 (s.getMsr 0x116) (writeDatum s) := passes_zero_mask _ _ _
  split_ifs with hlow
  · refine exec_wrmsr_of_own_stop hacc heldRule_bblAddr (st := .refuse .addrLowBits) hrsv hro ?_
    have haddr : addrCheck 0x116 (writeDatum s) = some (.refuse .addrLowBits) := if_pos ⟨rfl, hlow⟩
    have hapic : apicCheck 0x116 (s.getMsr 0x116) (writeDatum s) = none :=
      apicCheck_none_iff.2 fun ha => absurd ha (by decide)
    simp only [ownChecks, legalCheck_masked, hapic, haddr, firstStop_none_cons, firstStop_some_cons]
  · exact exec_wrmsr_of_admitted hacc heldRule_bblAddr {
      reserved := hrsv
      readOnly := hro
      legal := by simp
      apic := fun ha => absurd ha (by decide)
      lowBits := fun _ => not_not.1 hlow
      size := fun ha => absurd ha (by decide)
      free := fun _ => hfree }

/-! The registers without a field table. -/

/-- Past the reserved bits a register without a field table takes a legal value's writable bits and refuses any other
(40_msr_access.md R201, R213). -/
theorem exec_wrmsr_legal {s : State} {a : Addr} {rsv : Word64} (ha : a ∈ nameOnlyAddrs ++ mcStatusAddrs)
    (hw : heldRule? a = some (.legal rsv)) (hacc : accesses s a)
    (hrsv : passes s.params.reservedWrite rsv (s.getMsr a) (writeDatum s)) : exec .wrmsr s =
      if legalValue s.params a (writeDatum s) = true then
        .next (afterWrite s a ((s.getMsr a &&& rsv) ||| (writeDatum s &&& ~~~rsv)))
      else .refused (.illegalValue a) := by
  obtain ⟨hapic, haddr, hctl3, hlocked⟩ := no_own_check_of_legal a ha
  have hmask : checkedReserved a (writeMasks (.legal rsv)) = rsv := checkedReserved_of_ne _ haddr
  have hro : passes s.params.readOnlyWrite 0 (s.getMsr a) (writeDatum s) := passes_zero_mask _ _ _
  split_ifs with hlegal
  · have hadm : Admitted s a (.legal rsv) := {
      reserved := by rw [hmask]; exact hrsv
      readOnly := hro
      legal := fun _ => hlegal
      apic := fun h => absurd h hapic
      lowBits := fun h => absurd h haddr
      size := fun h => absurd h hctl3
      free := fun h => absurd h hlocked }
    rw [exec_wrmsr_of_admitted hacc hw hadm, writtenValue_of_ne _ _ _ haddr, writeMasks, BitVec.not_not]
  · refine exec_wrmsr_of_own_stop hacc hw (st := .refuse (.illegalValue a)) (by rw [hmask]; exact hrsv) hro ?_
    have hcheck : legalCheck s.params a (.legal rsv) (writeDatum s) = some (.refuse (.illegalValue a)) := if_neg hlegal
    rw [ownChecks, hcheck, firstStop_some_cons]

/-- Settles O22: a name-only register has no reserved bit, so that a legal value is taken whole. -/
theorem wrmsrOfANameOnlyRegister : Obligations.WrmsrOfANameOnlyRegister := by
  intro s a ha hacc
  rw [exec_wrmsr_legal (List.mem_append_left _ ha) (heldRule_of_nameOnly a ha) hacc (passes_zero_mask _ _ _),
    BitVec.or_comm, merge_zero_mask]

/-- Settles O23: R199 for the unlisted bits, then R201 for the rest. -/
theorem wrmsrOfAnMcStatus : Obligations.WrmsrOfAnMcStatus := by
  intro s a ha hacc
  have hmem : a ∈ nameOnlyAddrs ++ mcStatusAddrs := List.mem_append_right _ ha
  obtain ⟨_, haddr, _⟩ := no_own_check_of_legal a hmem
  refine ⟨exec_wrmsr_legal hmem (heldRule_of_mcStatus a ha) hacc, fun hdiffer => ?_⟩
  refine exec_wrmsr_of_reserved_differ hacc (heldRule_of_mcStatus a ha) ?_
  rw [checkedReserved_of_ne _ haddr]
  exact hdiffer

/-! BBL_CR_BUSY. -/

/-- BBL_CR_BUSY's register is the row of Table R212 without a writable bit (40_msr_access.md R210). -/
theorem heldRule_bblBusy : heldRule? addrBblBusy = some (.masked ⟨0, 1, 0xFFFFFFFFFFFFFFFE⟩) := by decide

/-- A WRMSR of BBL_CR_BUSY completes exactly where its datum is admitted, and writes back the held value. -/
theorem exec_wrmsr_bblBusy_next_iff {s t : State} (hacc : accesses s 0x11B) : exec .wrmsr s = .next t ↔
    Admitted s 0x11B (.masked ⟨0, 1, 0xFFFFFFFFFFFFFFFE⟩) ∧ t = afterWrite s 0x11B (s.getMsr 0x11B) := by
  rw [exec_wrmsr_next_iff hacc heldRule_bblBusy, writtenValue_of_ne _ _ _ (by decide), writeMasks, merge_zero_mask]

/-- The masks of BBL_CR_BUSY cover the 64 bits, so under preserve the datum is the held value. -/
theorem passes_preserve_bblBusy_iff {held v : Word64} :
    passes .preserve 0xFFFFFFFFFFFFFFFE held v ∧ passes .preserve 1 held v ↔ v = held := by
  have hcover : (held ^^^ v) &&& 0xFFFFFFFFFFFFFFFE ||| (held ^^^ v) &&& 1 = held ^^^ v := by
    rw [← BitVec.and_or_distrib_left]
    exact BitVec.and_allOnes
  simp only [passes, reduceCtorEq, false_or]
  constructor
  · rintro ⟨hrsv, hro⟩
    rw [hrsv, hro] at hcover
    exact (BitVec.xor_eq_zero_iff.1 hcover.symm).symm
  · rintro rfl
    simp

/-- Under the default settings the admission of a datum to BBL_CR_BUSY is that it is held and no command runs. -/
theorem admitted_bblBusy_iff {s : State} (hrsv : s.params.reservedWrite = .preserve)
    (hro : s.params.readOnlyWrite = .preserve) : Admitted s 0x11B (.masked ⟨0, 1, 0xFFFFFFFFFFFFFFFE⟩) ↔
      writeDatum s = s.getMsr 0x11B ∧ ¬commandInProgress s := by
  rw [← passes_preserve_bblBusy_iff]
  constructor
  · intro h
    have hreserved := h.reserved
    have hreadOnly := h.readOnly
    rw [hrsv] at hreserved
    rw [hro] at hreadOnly
    exact ⟨⟨hreserved, hreadOnly⟩, h.free (by decide)⟩
  · rintro ⟨⟨hreserved, hreadOnly⟩, hfree⟩
    exact {
      reserved := by rw [hrsv]; exact hreserved
      readOnly := by rw [hro]; exact hreadOnly
      legal := by simp
      apic := fun ha => absurd ha (by decide)
      lowBits := fun ha => absurd ha (by decide)
      size := fun ha => absurd ha (by decide)
      free := fun _ => hfree }

/-- Settles O28: what completes writes back the held value, and by default only that value is admitted. -/
theorem wrmsrCannotWriteBusy : Obligations.WrmsrCannotWriteBusy := by
  intro s hacc
  constructor
  · intro t h
    obtain ⟨_, rfl⟩ := (exec_wrmsr_bblBusy_next_iff hacc).1 h
    refine ⟨rfl, fun a => ?_, fun hwf => ?_⟩
    · have hset : msrGet (msrSet s.msr 0x11B (s.getMsr 0x11B)) a = if a = 0x11B then s.getMsr 0x11B else s.getMsr a :=
        msrGet_set _ _ _ _
      rw [afterWrite, State.getMsr, hset]
      split
      · next ha => rw [ha]
      · rfl
    · rw [afterWrite, State.getMsr, msrSet_get _ hwf]
  · intro hrsv hro
    simp only [exec_wrmsr_bblBusy_next_iff hacc, admitted_bblBusy_iff hrsv hro, exists_and_left, exists_eq, and_true]

/-! The frame of WRMSR. -/

/-- Settles O33: what a write that answers a next state can be, case by case. -/
theorem wrmsrFrame : Obligations.WrmsrFrame := by
  intro s t h
  obtain ⟨_, u, hwrite, rfl⟩ := execWrmsr_next h
  rcases writeMsr_next hwrite with ⟨rfl, _⟩ | ⟨_, r, hrow, hv, _, rfl⟩ | ⟨_, htrig, _, _, _, rfl⟩
  · exact ⟨rfl, fun _ => rfl, fun _ _ => rfl, fun _ => rfl⟩
  · have hne : s.ecx ≠ 0x11A := fun ha => by
      have hheld : heldRule? 0x11A = some r.rule := heldRule_eq_some_iff.2 ⟨r, ha ▸ hrow, hv, rfl⟩
      have hnone : heldRule? 0x11A = none := by decide
      exact nomatch hnone.symm.trans hheld
    refine ⟨rfl, fun _ => rfl, fun a ha => ?_, fun _ => rfl⟩
    rw [if_neg hne] at ha
    exact getMsr_setMsr_other s _ ha
  · refine ⟨rfl, fun hne => absurd htrig hne, fun a ha => ?_, fun _ => rfl⟩
    rw [if_pos htrig] at ha
    rw [advance_getMsr, getMsr_latchCommand, if_neg ha]

end Sys2Proof.Machine
end

section
/-! The statements of 41_l2_commands.md on the engine's step: no command but the latched one of a busy engine, and
the turn that runs that one. -/

namespace Sys2Proof.Machine

/-- The completion of a code is not enabled where no command is in progress or the latch holds no request of that
code (41_l2_commands.md R233). -/
theorem completeCommand_of_not_latched {s : State} {c : BitVec 5}
    (h : ¬commandInProgress s ∨ ∀ req, s.l2Pending = some req → req.cmd ≠ c) :
    completeCommand c s = .refused (.l2CommandNotLatched c) := by
  cases hp : s.l2Pending with
  | none => simp only [completeCommand, hp]
  | some req =>
    have hdisabled : ¬(l2Busy s = true ∧ req.cmd = c) := by
      rintro ⟨hbusy, hcmd⟩
      rcases h with hidle | hother
      · exact hidle ((commandInProgress_iff s).2 hbusy)
      · exact hother req hp hcmd
    simp only [completeCommand, hp, if_neg hdisabled]

/-- Settles O35: an L2 command is the completion of its code, which is not enabled here. -/
theorem l2CommandsNeedTheLatch : Obligations.L2CommandsNeedTheLatch := by
  intro s i c hcode hlatch
  rw [exec_command (encode_eq_l2cmd_iff.1 hcode), completeCommand_of_not_latched hlatch]

/-- The engine moves at its turn while a command is in progress (20_memory.md R149). -/
theorem mover_of_commandInProgress {s : State} (hturn : s.turn = .l2Engine) (hb : commandInProgress s) :
    mover s = .l2Engine := by
  simp [mover, hturn, (commandInProgress_iff s).1 hb]

/-- Settles O7: the engine's step, with its answer taken apart. -/
theorem stepRunsTheLatchedCommand : Obligations.StepRunsTheLatchedCommand := by
  intro s req i hturn hb hp hd
  rw [step_of_latched (mover_of_commandInProgress hturn hb) hp hd]
  cases exec i s <;> rfl

end Sys2Proof.Machine
end

section
/-! The statement of 42_aux_mov.md: the answer of each admitted form of MOV r32, imm32 (R261), which reads no CPL
and so is a next state at every one. -/

namespace Sys2Proof.Machine

@[simp] theorem exec_movEax (n : Word32) (s : State) :
    exec (.movEax n) s = .next { s with eax := n, eip := s.eip + 5 } := rfl

@[simp] theorem exec_movEcx (n : Word32) (s : State) :
    exec (.movEcx n) s = .next { s with ecx := n, eip := s.eip + 5 } := rfl

@[simp] theorem exec_movEdx (n : Word32) (s : State) :
    exec (.movEdx n) s = .next { s with edx := n, eip := s.eip + 5 } := rfl

/-- Settles O10: one answer per form of R261. -/
theorem movLoadsItsRegister : Obligations.MovLoadsItsRegister :=
  fun n s => ⟨exec_movEax n s, exec_movEcx n s, exec_movEdx n s⟩

end Sys2Proof.Machine
end

section
/-! The statement of 60_exceptions.md: what a step that answers a fault can be, operation by operation, and the causes
R271 lists. -/

namespace Sys2Proof.Machine

/-! Answers and checks. -/

@[simp] theorem afterNext_fault_iff {g : State → State} {o : Answer} {f : Fault} :
    afterNext g o = .fault f ↔ o = .fault f := by
  cases o <;> simp [afterNext]

@[simp] theorem answerStop_fault_iff {st : Stop} {f : Fault} : answerStop st = .fault f ↔ st = .fault f := by
  cases st <;> simp [answerStop]

/-- The first stop is that of a check in the list (40_msr_access.md R211). -/
theorem mem_of_firstStop {l : List (Option Stop)} {st : Stop} (h : firstStop l = some st) : some st ∈ l := by
  induction l with
  | nil => cases h
  | cons c l ih =>
    cases c with
    | none => exact List.mem_cons_of_mem _ (ih h)
    | some st' => cases h; exact List.mem_cons_self

/-- A policy faults under the setting fault alone (40_msr_access.md R199, R200). -/
theorem policyCheck_fault {p : WritePolicy} {d : Bool} {r : Refusal} {f : Fault}
    (h : policyCheck p d r = some (.fault f)) : p = .fault := by
  cases p with
  | preserve => simp [policyCheck] at h
  | ignore => simp [policyCheck] at h
  | fault => rfl

/-- A register's own checks refuse and never fault (40_msr_access.md R201, R203, R206, R208, R209). -/
theorem fault_notMem_ownChecks (a : Addr) (w : WriteRule) (v : Word64) (s : State) (f : Fault) :
    some (.fault f) ∉ ownChecks a w v s := by
  have hlegal : some (.fault f) ≠ legalCheck s.params a w v := by cases w <;> simp [legalCheck]
  have hapic : some (.fault f) ≠ apicCheck a (s.getMsr a) v := by simp [apicCheck]
  have haddr : some (.fault f) ≠ addrCheck a v := by simp [addrCheck]
  have hsize : some (.fault f) ≠ sizeCheck a v := by simp [sizeCheck]
  have hbusy : some (.fault f) ≠ busyCheck a s := by simp [busyCheck]
  simp [ownChecks, hlegal, hapic, haddr, hsize, hbusy]

/-! The register level. -/

/-- A parameter that lets a datum fault is set to fault (60_exceptions.md R271 (c)). -/
def WritePolicyFaults (p : Params) : Prop := p.reservedWrite = .fault ∨ p.readOnlyWrite = .fault

/-- The availability of an address makes an access of a kind fault (40_msr_access.md R195, R197). -/
def AvailabilityFaults (p : Params) (k : AccessKind) (a : Addr) : Prop :=
  avail p a = .faults ∨ avail p a = .notImplemented ∧ notImplPolicy p k a = .fault

/-- An address whose availability faults is one of the Pentium's three on the P6 family, or a not implemented one
under the parameter (60_exceptions.md R271 (b), (c)). -/
theorem AvailabilityFaults.cause {p : Params} {k : AccessKind} {a : Addr} (h : AvailabilityFaults p k a) :
    p.model ≠ .pentium ∧ a ∈ ([0x11, 0x12, 0x13] : List Addr) ∨
    a ∈ notImplementedAddrs ∧ notImplPolicy p k a = .fault := by
  have hclass := availabilityOfEveryAddress p a
  rcases h with hfaults | ⟨hnot, hpolicy⟩
  · rw [hfaults] at hclass
    split_ifs at hclass with _ _ _ _ hloud hmodel
    exact .inl ⟨hmodel, by simpa using hloud⟩
  · rw [hnot] at hclass
    split_ifs at hclass with _ _ _ _ _ _ _ _ hmem
    exact .inr ⟨hmem, hpolicy⟩

/-- A read of a present register never faults. -/
theorem readPresent_ne_fault (a : Addr) (s : State) (f : Fault) : readPresent a s ≠ .stop (.fault f) := by
  unfold readPresent readDraw
  split_ifs <;> simp

/-- A read faults by its availability alone. -/
theorem readMsr_fault {a : Addr} {s : State} {f : Fault} (h : readMsr a s = .stop (.fault f)) :
    AvailabilityFaults s.params .read a := by
  cases ha : avail s.params a with
  | unlisted => simp [readMsr, ha] at h
  | notEstablished => simp [readMsr, ha] at h
  | faults => exact .inl ha
  | silent => simp [readMsr, ha, readDraw] at h
  | notImplemented =>
    cases hp : notImplPolicy s.params .read a with
    | refuse => simp [readMsr, ha, hp] at h
    | fault => exact .inr ⟨ha, hp⟩
    | silent => simp [readMsr, ha, hp, readDraw] at h
  | present =>
    simp only [readMsr, ha] at h
    exact absurd h (readPresent_ne_fault a s f)

/-- A write to a register that holds a value faults by one of the two policies alone. -/
theorem writeHeld_fault {a : Addr} {w : WriteRule} {v : Word64} {s : State} {f : Fault}
    (h : writeHeld a w v s = .fault f) : WritePolicyFaults s.params := by
  unfold writeHeld at h
  split at h
  next st hst =>
    rw [answerStop_fault_iff.1 h] at hst
    rcases List.mem_cons.1 (mem_of_firstStop hst) with hrsv | hrest
    · exact .inl (policyCheck_fault hrsv.symm)
    · rcases List.mem_cons.1 hrest with hro | hown
      · exact .inr (policyCheck_fault hro.symm)
      · exact absurd hown (fault_notMem_ownChecks a w v s f)
  next => cases h

/-- A trigger never faults (40_msr_access.md R204, R209; 41_l2_commands.md R236). -/
theorem triggerL2_ne_fault (v : Word64) (s : State) (f : Fault) : triggerL2 v s ≠ .fault f := by
  unfold triggerL2
  split_ifs <;> simp

/-- Of the five rules of a row, the two of a register that holds a value can fault. -/
theorem writePresent_fault {a : Addr} {v : Word64} {s : State} {f : Fault} (h : writePresent a v s = .fault f) :
    WritePolicyFaults s.params := by
  cases hrow : msrRow? a with
  | none => simp [writePresent, hrow] at h
  | some r =>
    cases hrule : r.rule with
    | masked m => exact writeHeld_fault (by simpa only [writePresent, hrow, hrule] using h)
    | legal rsv => exact writeHeld_fault (by simpa only [writePresent, hrow, hrule] using h)
    | trigger => exact absurd (by simpa only [writePresent, hrow, hrule] using h) (triggerL2_ne_fault v s f)
    | biosTrigger => simp [writePresent, hrow, hrule] at h
    | noRegister => simp [writePresent, hrow, hrule] at h

/-- A write faults by its availability or by a policy. -/
theorem writeMsr_fault {a : Addr} {v : Word64} {s : State} {f : Fault} (h : writeMsr a v s = .fault f) :
    AvailabilityFaults s.params .write a ∨ WritePolicyFaults s.params := by
  cases ha : avail s.params a with
  | unlisted => simp [writeMsr, ha] at h
  | notEstablished => simp [writeMsr, ha] at h
  | faults => exact .inl (.inl ha)
  | silent => simp [writeMsr, ha] at h
  | notImplemented =>
    cases hp : notImplPolicy s.params .write a with
    | refuse => simp [writeMsr, ha, hp] at h
    | fault => exact .inl (.inr ⟨ha, hp⟩)
    | silent => simp [writeMsr, ha, hp] at h
  | present =>
    simp only [writeMsr, ha] at h
    exact .inr (writePresent_fault h)

/-- The engine's completion never faults (41_l2_commands.md R233). -/
theorem completeCommand_ne_fault (c : BitVec 5) (s : State) (f : Fault) : completeCommand c s ≠ .fault f := by
  unfold completeCommand
  split
  · split_ifs <;> simp
  · simp

/-! The instructions. -/

/-- What an RDMSR that faults is. -/
theorem execRdmsr_fault {s : State} {f : Fault} (h : execRdmsr s = .fault f) :
    s.cpl ≠ 0 ∨ AvailabilityFaults s.params .read s.ecx := by
  unfold execRdmsr at h
  split at h
  next hcpl => exact .inl hcpl
  next =>
    split at h
    next => cases h
    next st hread =>
      rw [answerStop_fault_iff.1 h] at hread
      exact .inr (readMsr_fault hread)

/-- What a WRMSR that faults is. -/
theorem execWrmsr_fault {s : State} {f : Fault} (h : execWrmsr s = .fault f) :
    s.cpl ≠ 0 ∨ AvailabilityFaults s.params .write s.ecx ∨ WritePolicyFaults s.params := by
  unfold execWrmsr at h
  split at h
  next hcpl => exact .inl hcpl
  next => exact .inr (writeMsr_fault (afterNext_fault_iff.1 h))

/-- An L2 command never faults. -/
theorem exec_command_ne_fault {i : Instr} {c : BitVec 5} (h : commandCode i = some c) (s : State) (f : Fault) :
    exec i s ≠ .fault f := by
  rw [exec_command h]
  exact completeCommand_ne_fault c s f

/-- The instructions that can fault are RDMSR and WRMSR (60_exceptions.md Table R271). -/
theorem exec_fault {i : Instr} {s : State} {f : Fault} (h : exec i s = .fault f) :
    i = .rdmsr ∧ execRdmsr s = .fault f ∨ i = .wrmsr ∧ execWrmsr s = .fault f := by
  rcases instr_kinds i with rfl | rfl | ⟨n, rfl | rfl | rfl⟩ | ⟨c, hc⟩
  · exact .inl ⟨rfl, h⟩
  · exact .inr ⟨rfl, h⟩
  · simp at h
  · simp at h
  · simp at h
  · exact absurd h (exec_command_ne_fault hc s f)

/-! The step. -/

/-- What the latched code decodes to never faults, so the engine's step does not. -/
theorem engineStep_ne_fault (s : State) (f : Fault) : engineStep s ≠ .fault f := by
  unfold engineStep
  split
  next req _ =>
    split
    next i rest hd =>
      obtain ⟨hcode, _⟩ := decode_l2cmd_ok_iff.1 hd
      exact fun h => exec_command_ne_fault (commandCode_of_decodeL2 hcode) s f (afterNext_fault_iff.1 h)
    next => simp
  next => simp

/-- A step that faults is the core's, of the instruction at EIP (60_exceptions.md R275). -/
theorem step_fault {s : State} {f : Fault} (h : step s = .fault f) :
    mover s = .core ∧ ∃ i rest, fetch s = .ok i rest ∧ exec i s = .fault f := by
  unfold step at h
  split at h
  next hm =>
    refine ⟨hm, ?_⟩
    unfold coreStep at h
    split at h
    next i rest hf => exact ⟨i, rest, hf, afterNext_fault_iff.1 h⟩
    next => cases h
  next => cases h
  next => exact absurd h (engineStep_ne_fault s f)

/-- Settles O45: the step is of the core's RDMSR or WRMSR, and each way either faults is a cause of the list. -/
theorem faultsHaveOnlyTheListedCauses : Obligations.FaultsHaveOnlyTheListedCauses := by
  intro s f h
  obtain ⟨hm, i, rest, hfetch, hexec⟩ := step_fault h
  refine ⟨hm, i, rest, hfetch, ?_⟩
  rcases exec_fault hexec with ⟨hi, hr⟩ | ⟨hi, hw⟩
  · rcases execRdmsr_fault hr with hcpl | havail
    · exact .inl ⟨hcpl, .inl hi⟩
    · rcases havail.cause with ⟨hmodel, hmem⟩ | ⟨hmem, hpolicy⟩
      · exact .inr (.inl ⟨hmodel, hmem, .inl hi⟩)
      · exact .inr (.inr (.inl ⟨hi, hmem, hpolicy⟩))
  · rcases execWrmsr_fault hw with hcpl | havail | hpolicies
    · exact .inl ⟨hcpl, .inr hi⟩
    · rcases havail.cause with ⟨hmodel, hmem⟩ | ⟨hmem, hpolicy⟩
      · exact .inr (.inl ⟨hmodel, hmem, .inr hi⟩)
      · exact .inr (.inr (.inr (.inl ⟨hi, hmem, hpolicy⟩)))
    · exact .inr (.inr (.inr (.inr ⟨hi, hpolicies⟩)))

end Sys2Proof.Machine
end

section
/-! The statements of 70_reset_and_hazards.md: the values the registers hold after reset, the hazards, which the model
enforces by refusal, and the APIC enable, which no run sets again. -/

namespace Sys2Proof.Machine

/-! The registers after reset. -/

/-- Reading an MSR file at its first entry or past it. -/
theorem msrGet_cons (k : Nat) (b : Addr) (hk : k = b.toNat) (v : Word64) (f : List (Nat × Word64)) (a : Addr) :
    msrGet ((k, v) :: f) a = if a = b then v else msrGet f a := by
  subst hk
  by_cases ha : a = b
  · simp [msrGet, storeGet?, ha]
  · have hne : b.toNat ≠ a.toNat := fun e => ha (BitVec.eq_of_toNat_eq e.symm)
    simp [msrGet, storeGet?, ha, hne]

/-- What each register holds after reset: three have a value of their own, every other is zero
(70_reset_and_hazards.md R321 to R327; log 4). -/
theorem getMsr_resetWith (p : Params) (b : Bool) (a : Addr) : (State.resetWith p b).getMsr a =
    if a = 0x1B then resetApicBase b
    else if a = 0x2A then resetEblCrPowerOn p.model
    else if a = 0x1E0 then resetRobCr
    else 0 := by
  have hnil : msrGet [] a = 0 := rfl
  simp only [State.getMsr, resetWith_msr, resetMsr]
  split
  next =>
    rw [msrGet_cons 0x1B 0x1B rfl, msrGet_cons 0x2A 0x2A rfl, msrGet_cons 0x1E0 0x1E0 rfl, hnil]
  next hm =>
    rw [msrGet_cons 0x1B 0x1B rfl, msrGet_cons 0x1E0 0x1E0 rfl, hnil]
    by_cases ha : a = 0x2A
    · subst ha; simp [resetEblCrPowerOn, hm]
    · rw [if_neg ha]

theorem getMsr_resetWith_apicBase (p : Params) (b : Bool) :
    (State.resetWith p b).getMsr 0x1B = resetApicBase b := getMsr_resetWith p b 0x1B

theorem getMsr_resetWith_eblCrPowerOn (p : Params) (b : Bool) :
    (State.resetWith p b).getMsr 0x2A = resetEblCrPowerOn p.model := getMsr_resetWith p b 0x2A

theorem getMsr_resetWith_bblBusy (p : Params) (b : Bool) : (State.resetWith p b).getMsr 0x11B = 0 :=
  getMsr_resetWith p b 0x11B

theorem getMsr_resetWith_robCr (p : Params) (b : Bool) : (State.resetWith p b).getMsr 0x1E0 = resetRobCr :=
  getMsr_resetWith p b 0x1E0

/-- Settles O46: bit 8 is where the two reset values of APICBASE differ. -/
theorem resetBootStrapIndicator : Obligations.ResetBootStrapIndicator := by
  intro p
  rw [getMsr_resetWith_apicBase, getMsr_resetWith_apicBase]
  decide

/-- Settles O48: BBL_CR_BUSY is zero, and ROB_CR_BKUPTMPDR6 has a reset value of its own. -/
theorem resetBusyAndFastString : Obligations.ResetBusyAndFastString := by
  intro p b
  rw [getMsr_resetWith_bblBusy, getMsr_resetWith_robCr]
  decide

/-- The MSR file at reset has the canonical form on every Model and processor. -/
theorem msrFile_wf_resetMsr (m : Model) (b : Bool) : MsrFile.wf (resetMsr m b) := by
  cases m <;> cases b <;> decide

/-- No command is in progress after reset, and none is latched. -/
theorem latchCoherent_resetWith (p : Params) (b : Bool) : LatchCoherent (State.resetWith p b) := by
  obtain ⟨hidle, _⟩ := resetBusyAndFastString p b
  exact ⟨fun hbusy => absurd (hidle.symm.trans hbusy) Bool.false_ne_true, fun _ => rfl⟩

theorem inv_resetWith {p : Params} (b : Bool) (hp : paramsWellFormed p = true) : Inv (State.resetWith p b) :=
  ⟨⟨msrFile_wf_resetMsr p.model b, memory_wf_reset⟩, latchCoherent_resetWith p b, hp⟩

/-- Settles O40: the stores are canonical, the latch is empty and BUSY clear, and the parameters are the given ones. -/
theorem resetMeetsTheInvariant : Obligations.ResetMeetsTheInvariant :=
  ⟨fun _ b hp => inv_resetWith b hp, inv_resetWith true (by decide)⟩

/-- EBL_CR_POWERON's row of Table R212. -/
def maskRowEblCrPowerOn : MaskRow := ⟨0x2A, 0x00000000040000DE, 0x0000000001F3F700, 0xFFFFFFFFFA0C0821⟩

theorem maskRowEblCrPowerOn_mem : maskRowEblCrPowerOn ∈ maskRows := by simp [maskRows, maskRowEblCrPowerOn]

/-- Settles O47: the reset value by Model; a WRMSR past the policies is stored, and bit 26 is writable. -/
theorem resetLowPowerModeEnable : Obligations.ResetLowPowerModeEnable := by
  constructor
  · intro p b
    rw [getMsr_resetWith_eblCrPowerOn]
    exact ⟨fun hm => by rw [hm]; decide, fun hm => by rw [hm]; decide⟩
  · intro s hacc hrsv hro
    refine ⟨_, wrmsrStoresTheWritableBits s maskRowEblCrPowerOn maskRowEblCrPowerOn_mem hacc hrsv hro
      (fun ha => absurd ha (by decide)) (fun ha => absurd ha (by decide)) (fun ha => absurd ha (by decide)), ?_⟩
    rw [afterWrite, State.getMsr]
    simp only [maskRowEblCrPowerOn, msrGet_set_same, getLsbD_merge]
    rfl

/-! The APIC enable. -/

/-- What every step keeps, a run keeps. -/
theorem Reaches.keeps {P : State → Prop} {s t : State} (h : Reaches s t)
    (hstep : ∀ u v, step u = .next v → P u → P v) (hs : P s) : P t := by
  induction h with
  | refl => exact hs
  | next _ hnext ih => exact hstep _ _ hnext ih

/-- A write to APICBASE past its checks leaves a cleared enable clear (40_msr_access.md R203). -/
theorem writtenValue_apicBase_disabled {m : Masks} {held v : Word64} (hc : apicCheck addrApicBase held v = none)
    (hd : held.getLsbD 11 = false) : (writtenValue addrApicBase m held v).getLsbD 11 = false := by
  have hv : v.getLsbD 11 = false := (apicCheck_none_iff.1 hc rfl).resolve_left (ne_true_of_eq_false hd)
  rw [writtenValue_of_ne m held v (by decide), getLsbD_merge, hv, hd, ite_self]

/-- Of the five ways to act on the MSR file only a WRMSR reaches APICBASE. -/
theorem StoreMove.keeps_apicDisabled {s t : State} (h : StoreMove s t)
    (hd : (s.getMsr addrApicBase).getLsbD 11 = false) : (t.getMsr addrApicBase).getLsbD 11 = false := by
  cases h with
  | none => exact hd
  | @write r v _ _ hc =>
    rw [getMsr_setMsr]
    split
    next ha =>
      have hapic : apicCheck r.addr (s.getMsr r.addr) v = Option.none := hc _ (by simp [writeChecks])
      rw [← ha] at hapic ⊢
      exact writtenValue_apicBase_disabled hapic hd
    next => exact hd
  | trigger _ => rwa [getMsr_latchCommand, if_neg (by decide)]
  | completion out => rw [getMsr_commandDone]; exact hd
  | hardware _ => rwa [hwStep_getMsr_of_not (.inl (by decide))]

theorem step_keeps_apicDisabled (s t : State) (h : step s = .next t)
    (hd : (s.getMsr addrApicBase).getLsbD 11 = false) : (t.getMsr addrApicBase).getLsbD 11 = false := by
  obtain ⟨u, hmove, hsame⟩ := step_storeMove h
  rw [hsame.getMsr]
  exact hmove.keeps_apicDisabled hd

/-- Settles O43: every step keeps a cleared enable clear, so every run does. -/
theorem apicDisableIsPermanentUntilReset : Obligations.ApicDisableIsPermanentUntilReset :=
  fun _ _ hreach hd => hreach.keeps step_keeps_apicDisabled hd

/-! The Pentium's addresses on the P6 family. -/

/-- 11H, 12H and 13H fault on the P6 family (40_msr_access.md R195). -/
theorem avail_pentiumLoud {p : Params} {a : Addr} (hp : p.model ≠ .pentium) (ha : a = 0x11 ∨ a = 0x12 ∨ a = 0x13) :
    avail p a = .faults := by
  rw [availabilityOfEveryAddress]
  rcases ha with rfl | rfl | rfl <;> simp [listedAddrs, hp]

/-- 0H and 1H are silent on the P6 family (40_msr_access.md R194). -/
theorem avail_pentiumQuiet {p : Params} {a : Addr} (hp : p.model ≠ .pentium) (ha : a = 0x0 ∨ a = 0x1) :
    avail p a = .silent := by
  rw [availabilityOfEveryAddress]
  rcases ha with rfl | rfl <;> simp [listedAddrs, hp]

theorem avail_tsc (p : Params) : avail p addrTsc = .present := by
  rw [availabilityOfEveryAddress]
  simp [listedAddrs]

/-- A write to a name-only register completes or is refused (40_msr_access.md R201). -/
theorem exec_wrmsr_nameOnly_ne_fault {s : State} {a : Addr} (ha : a ∈ nameOnlyAddrs) (hacc : accesses s a) (f : Fault) :
    exec .wrmsr s ≠ .fault f := by
  rw [wrmsrOfANameOnlyRegister s a ha hacc]
  split <;> simp

/-- Settles O15: each of the six addresses by its class, and 10H as the present name-only register it is. -/
theorem pentiumAddressesOnTheP6Family : Obligations.PentiumAddressesOnTheP6Family := by
  intro s hcpl hmodel
  obtain ⟨_, _, hreadFaults, hreadSilent, _⟩ := rdmsrWithoutARegister s hcpl
  obtain ⟨_, _, hwriteFaults, hwriteSilent, _⟩ := wrmsrWithoutARegister s hcpl
  refine ⟨fun ha => ?_, fun ha => ?_, fun ha => ?_⟩
  · have hclass := avail_pentiumLoud hmodel ha
    exact ⟨hreadFaults hclass, hwriteFaults hclass⟩
  · have hclass := avail_pentiumQuiet hmodel ha
    exact ⟨hreadSilent hclass, hwriteSilent hclass⟩
  · have hacc : accesses s 0x10 := ⟨hcpl, ha, avail_tsc s.params⟩
    exact ⟨exec_rdmsr_held hacc (by decide) (by decide) fun hlock => absurd hlock (by decide),
      exec_wrmsr_nameOnly_ne_fault (by decide) hacc⟩

/-! The trigger, and the registers that wait for the engine. -/

/-- Settles O30: the refusal of every read, and of every datum that is not zero. -/
theorem triggerIsWrittenWithZeroAndNeverRead : Obligations.TriggerIsWrittenWithZeroAndNeverRead := by
  intro s hacc
  obtain ⟨hread, _⟩ := readValueOfAPresentRegister s 0x11A hacc
  obtain ⟨hwrite, _⟩ := wrmsrTriggerLatchesTheCommand s hacc
  exact ⟨⟨_, hread rfl⟩, fun hv => ⟨_, hwrite hv⟩⟩

/-- An answer that is neither a next state nor a fault is a refusal. -/
theorem refused_of_ne {o : Answer} (hnext : ∀ t, o ≠ .next t) (hfault : ∀ f, o ≠ .fault f) : ∃ r, o = .refused r := by
  cases o with
  | next t => exact absurd rfl (hnext t)
  | fault f => exact absurd rfl (hfault f)
  | refused r => exact ⟨r, rfl⟩

/-- A write to a present register faults by one of the two policies alone (60_exceptions.md R271 (c)). -/
theorem exec_wrmsr_fault_of_access {s : State} {a : Addr} {f : Fault} (hacc : accesses s a)
    (h : exec .wrmsr s = .fault f) : WritePolicyFaults s.params := by
  obtain ⟨hcpl, rfl, hp⟩ := hacc
  rcases execWrmsr_fault h with hne | hclass | hpolicy
  · exact absurd hcpl hne
  · simp [AvailabilityFaults, hp] at hclass
  · exact hpolicy

section
variable {s : State} {a : Addr} (hacc : accesses s a) (hb : commandInProgress s)
include hacc hb

/-- A register locked to reads is refused by RDMSR, BBL_CR_TRIG as write only (40_msr_access.md R204, R209). -/
theorem exec_rdmsr_locked_refused (ha : a ∈ lockedAddrs) : ∃ r, exec .rdmsr s = .refused r := by
  obtain ⟨htrig, _, hlocked, _⟩ := readValueOfAPresentRegister s a hacc
  rcases mem_lockedAddrs_iff.1 ha with ha | ha
  · exact ⟨_, htrig ha⟩
  · exact ⟨_, hlocked ha hb⟩

/-- No WRMSR of a register locked to writes completes: a write past its checks is to none while busy, and a trigger
is not taken (70_reset_and_hazards.md R332). -/
theorem exec_wrmsr_locked_ne_next (ha : a ∈ writeLockedAddrs) (t : State) : exec .wrmsr s ≠ .next t := by
  intro h
  obtain ⟨_, rfl, hp⟩ := hacc
  have hbusy := (commandInProgress_iff s).1 hb
  obtain ⟨_, u, hwrite, _⟩ := execWrmsr_next h
  rcases writeMsr_next hwrite with ⟨_, hclass⟩ | ⟨_, _, _, _, hc, _⟩ | ⟨_, _, _, hidle, _⟩
  · simp [hp] at hclass
  · simpa [writeLocked_iff.2 ha, hbusy] using writeChecks_not_locked hc
  · simp [hbusy] at hidle

/-- Under the default settings no policy faults, so that a write which does not complete is refused. -/
theorem exec_wrmsr_locked_refused_of_preserve (ha : a ∈ writeLockedAddrs) (hrsv : s.params.reservedWrite = .preserve)
    (hro : s.params.readOnlyWrite = .preserve) : ∃ r, exec .wrmsr s = .refused r :=
  refused_of_ne (exec_wrmsr_locked_ne_next hacc hb ha) fun _ hfault => by
    simpa [WritePolicyFaults, hrsv, hro] using exec_wrmsr_fault_of_access hacc hfault

end

/-- A row of the ten registers locked to writes is BBL_CR_TRIG's, or has the masks its register's checks use. -/
theorem lockedRow_cases {m : MaskRow} (hm : m ∈ lockedRows) : m.addr ∈ writeLockedAddrs ∧ (m.addr = 0x11A ∨
    ∃ k, heldRule? m.addr = some (.masked k) ∧ checkedReserved m.addr k = m.rsv ∧ k.ro = m.ro) := by
  rcases List.mem_append.1 hm with hm | hm
  · obtain ⟨hm, ha⟩ := List.mem_filter.1 hm
    exact ⟨by simpa using ha, .inr ⟨_, heldRule_of_maskRow m hm, checkedReserved_maskRow hm, rfl⟩⟩
  · simp only [List.mem_cons, List.not_mem_nil, or_false] at hm
    rcases hm with rfl | rfl
    · exact ⟨by decide, .inr ⟨_, heldRule_bblAddr, rfl, rfl⟩⟩
    · exact ⟨by decide, .inl rfl⟩

section
variable {s : State} {a : Addr} (hb : commandInProgress s) (ha : a ∈ writeLockedAddrs)
include hb ha

theorem busyCheck_locked : busyCheck a s = some (.refuse (.l2Busy a)) := by
  rw [busyCheck, writeLocked_iff.2 ha, (commandInProgress_iff s).1 hb]
  rfl

/-- While a command is in progress a locked register's own checks stop every datum, by a refusal. -/
theorem firstStop_ownChecks_locked (w : WriteRule) (v : Word64) :
    ∃ r, firstStop (ownChecks a w v s) = some (.refuse r) := by
  cases hst : firstStop (ownChecks a w v s) with
  | none =>
    have hfree : busyCheck a s = none := (firstStop_none_iff _).1 hst _ (by simp [ownChecks])
    simp [busyCheck_locked hb ha] at hfree
  | some st =>
    cases st with
    | fault f => exact absurd (mem_of_firstStop hst) (fault_notMem_ownChecks a w v s f)
    | refuse r => exact ⟨r, rfl⟩

/-- Where the register's own check holds, the lock is the first of them to fail (40_msr_access.md R211). -/
theorem firstStop_ownChecks_of_ownCheckHolds {m : Masks} {v : Word64} (hown : ownCheckHolds a v) :
    firstStop (ownChecks a (.masked m) v s) = some (.refuse (.l2Busy a)) := by
  obtain ⟨hlow, _, hsize⟩ := hown
  have hne : a ≠ 0x1B := by rintro rfl; exact absurd ha (by decide)
  have hapic : apicCheck a (s.getMsr a) v = none := apicCheck_none_iff.2 fun h => absurd h hne
  simp only [ownChecks, legalCheck_masked, hapic, addrCheck_none_iff.2 hlow, sizeCheck_none_iff.2 hsize,
    busyCheck_locked hb ha, firstStop_none_cons, firstStop_some_cons]

end

/-- While a command is in progress BBL_CR_TRIG refuses every datum, zero by the lock (40_msr_access.md R204, R209). -/
theorem exec_wrmsr_bblTrig_locked {s : State} (hacc : accesses s 0x11A) (hb : commandInProgress s) :
    (∃ r, exec .wrmsr s = .refused r) ∧ (writeDatum s = 0 → exec .wrmsr s = .refused (.l2Busy 0x11A)) := by
  obtain ⟨hnonzero, hbusy, _⟩ := wrmsrTriggerLatchesTheCommand s hacc
  refine ⟨?_, fun hv => hbusy hv hb⟩
  by_cases hv : writeDatum s = 0
  · exact ⟨_, hbusy hv hb⟩
  · exact ⟨_, hnonzero hv⟩

/-- Settles O31: the lock of reads, the lock of writes under any setting, and past the policies the own checks of the
register, the lock the last of them. -/
theorem lockedRegistersWaitForTheEngine : Obligations.LockedRegistersWaitForTheEngine := by
  intro s a hacc hb
  refine ⟨exec_rdmsr_locked_refused hacc hb, fun ha => ?_, fun ha => ⟨exec_wrmsr_locked_ne_next hacc hb ha,
    exec_wrmsr_locked_refused_of_preserve hacc hb ha⟩, fun m hm hma hrsv hro => ?_⟩
  · subst ha
    exact exec_rdmsr_held hacc (by decide) (by decide) fun hlock => absurd hlock (by decide)
  · subst hma
    obtain ⟨ha, htrig | ⟨k, hrule, hkrsv, hkro⟩⟩ := lockedRow_cases hm
    · rw [htrig] at hacc ⊢
      obtain ⟨hrefused, hzero⟩ := exec_wrmsr_bblTrig_locked hacc hb
      exact ⟨hrefused, fun ⟨_, hown, _⟩ => hzero (hown rfl)⟩
    · rw [← hkrsv] at hrsv
      rw [← hkro] at hro
      have stops {r : Refusal} (hst : firstStop (ownChecks m.addr (.masked k) (writeDatum s) s) = some (.refuse r)) :
          exec .wrmsr s = .refused r := exec_wrmsr_of_own_stop hacc hrule hrsv hro hst
      obtain ⟨r, hr⟩ := firstStop_ownChecks_locked hb ha (.masked k) (writeDatum s)
      exact ⟨⟨r, stops hr⟩, fun hown => stops (firstStop_ownChecks_of_ownCheckHolds hb ha hown)⟩

end Sys2Proof.Machine
end
